-- ==== Sys2Proof/Word.lean ====
section
/-! DEFINITION. The two word types of the block: a byte and a 16-bit word (rules R6, R8). -/

namespace Sys2Proof

/-- A byte: 8 bits, an unsigned value 0 to 255 (R6, decision D27). -/
abbrev Byte := BitVec 8

/-- A 16-bit unsigned word: a checksum, a table entry, a command word, a response word (R8, R70, R71). -/
abbrev Word := BitVec 16

end Sys2Proof
end

