-- ==== Sys2Proof/Syntax.lean ====
section
/-! DEFINITION. The host commands of rule R74 as syntax: `Instr`, one constructor per row of the opcode map; the
names of the rows, the two formats of R70, and a command as the assembler of R88 writes it. -/

namespace Sys2Proof

/-- The 17 host commands of R74. A format-`A` command carries its operand, a byte used as it stands (R72). -/
inductive Instr where
  /-- `NOP` (R200) -/
  | nop
  /-- `SYS.RST` (R201) -/
  | sysRst
  /-- `SYS.ERR` (R202) -/
  | sysErr
  /-- `CRC.CLR` (R106) -/
  | crcClr
  /-- `CRC.UPD b` (R107) -/
  | crcUpd (b : Byte)
  /-- `CRC.RD` (R108) -/
  | crcRd
  /-- `TBL.RD i` (R109) -/
  | tblRd (i : Byte)
  /-- `FB.START` (R131) -/
  | fbStart
  /-- `FB.BYTE b` (R132) -/
  | fbByte (b : Byte)
  /-- `FB.END` (R133) -/
  | fbEnd
  /-- `FP.RST` (R156) -/
  | fpRst
  /-- `FP.PUSH b` (R157) -/
  | fpPush (b : Byte)
  /-- `FP.EOS` (R158) -/
  | fpEos
  /-- `FP.STAT` (R159) -/
  | fpStat
  /-- `FP.GET` (R160) -/
  | fpGet
  /-- `FP.RXCRC` (R161) -/
  | fpRxcrc
  /-- `FP.CALC` (R162) -/
  | fpCalc
  deriving DecidableEq, Repr

/-- The mnemonics of R74, in the map's order. -/
inductive Opcode where
  | nop | sysRst | sysErr
  | crcClr | crcUpd | crcRd | tblRd
  | fbStart | fbByte | fbEnd
  | fpRst | fpPush | fpEos | fpStat | fpGet | fpRxcrc | fpCalc
  deriving DecidableEq, Repr

/-- Every row of R74, in the map's order. -/
def Opcode.all : List Opcode :=
  [.nop, .sysRst, .sysErr, .crcClr, .crcUpd, .crcRd, .tblRd, .fbStart, .fbByte, .fbEnd,
   .fpRst, .fpPush, .fpEos, .fpStat, .fpGet, .fpRxcrc, .fpCalc]

/-- The two formats of R70: `n`, no operand, and `a`, one 8-bit operand. -/
inductive Format where
  | n
  | a
  deriving DecidableEq, Repr

/-- The format column of R74. -/
def Opcode.format : Opcode → Format
  | .crcUpd => .a
  | .tblRd => .a
  | .fbByte => .a
  | .fpPush => .a
  | .nop => .n
  | .sysRst => .n
  | .sysErr => .n
  | .crcClr => .n
  | .crcRd => .n
  | .fbStart => .n
  | .fbEnd => .n
  | .fpRst => .n
  | .fpEos => .n
  | .fpStat => .n
  | .fpGet => .n
  | .fpRxcrc => .n
  | .fpCalc => .n

/-- The row of R74 a command belongs to. -/
def Instr.opcode : Instr → Opcode
  | .nop => .nop
  | .sysRst => .sysRst
  | .sysErr => .sysErr
  | .crcClr => .crcClr
  | .crcUpd _ => .crcUpd
  | .crcRd => .crcRd
  | .tblRd _ => .tblRd
  | .fbStart => .fbStart
  | .fbByte _ => .fbByte
  | .fbEnd => .fbEnd
  | .fpRst => .fpRst
  | .fpPush _ => .fpPush
  | .fpEos => .fpEos
  | .fpStat => .fpStat
  | .fpGet => .fpGet
  | .fpRxcrc => .fpRxcrc
  | .fpCalc => .fpCalc

/-- The operand of a format-`A` command. -/
def Instr.operand : Instr → Option Byte
  | .crcUpd b => some b
  | .tblRd i => some i
  | .fbByte b => some b
  | .fpPush b => some b
  | .nop => none
  | .sysRst => none
  | .sysErr => none
  | .crcClr => none
  | .crcRd => none
  | .fbStart => none
  | .fbEnd => none
  | .fpRst => none
  | .fpEos => none
  | .fpStat => none
  | .fpGet => none
  | .fpRxcrc => none
  | .fpCalc => none

/-- A command as it is written down (R88): a mnemonic and, for format `A`, an operand that is still an unchecked
number. `WellFormed.lean` says which of these are commands. -/
structure Source where
  opcode : Opcode
  operand : Option Nat
  deriving DecidableEq, Repr

/-- A command as it is written down. -/
def Instr.source (i : Instr) : Source := ⟨i.opcode, i.operand.map BitVec.toNat⟩

end Sys2Proof
end

