-- ==== Sys2Proof/WellFormed.lean ====
section
/-! DEFINITION. Which written commands are commands (rules R70, R72, R88): an operand exactly where the format asks
for one, and an operand of 8 bits. -/

namespace Sys2Proof

/-- A format-`N` command has no operand (R70). -/
def Source.noOperandOnN (c : Source) : Bool := c.opcode.format == .a || c.operand.isNone

/-- A format-`A` command has its one operand (R70). -/
def Source.operandOnA (c : Source) : Bool := c.opcode.format == .n || c.operand.isSome

/-- An operand is an unsigned byte, 0 to 255 (R72, R88). -/
def Source.operandIsByte (c : Source) : Bool := c.operand.all (fun n => decide (n ≤ 255))

/-- A written command is well formed when it passes the three checks. -/
def Source.wf (c : Source) : Bool := c.noOperandOnN && c.operandOnA && c.operandIsByte

/-- An `Instr` is well formed when it is as it would be written down. Its type admits nothing else (an operand is a
`Byte`, and only the format-`A` constructors have one): `Instr.wf_of_type` in `Laws/Encoding.lean`. -/
def Instr.wf (i : Instr) : Bool := i.source.wf

end Sys2Proof
end

