-- ==== Sys2Proof/Decode.lean ====
section
/-! DEFINITION. Decoding a command word (rules R70, R73 to R77) and, after it, encoding a command (R70, R74, R88).
The port carries whole 16-bit words, so no byte order enters (R52 (c)). -/

namespace Sys2Proof

/-- `cmd[15:8]` (R70). -/
def opField (w : Word) : Byte := w.extractLsb' 8 8

/-- `cmd[7:0]` (R70). -/
def argField (w : Word) : Byte := w.extractLsb' 0 8

/-- The `op` column of R74. -/
def Opcode.code : Opcode → Byte
  | .nop => 0x00
  | .sysRst => 0x01
  | .sysErr => 0x02
  | .crcClr => 0x10
  | .crcUpd => 0x11
  | .crcRd => 0x12
  | .tblRd => 0x13
  | .fbStart => 0x20
  | .fbByte => 0x21
  | .fbEnd => 0x22
  | .fpRst => 0x30
  | .fpPush => 0x31
  | .fpEos => 0x32
  | .fpStat => 0x33
  | .fpGet => 0x34
  | .fpRxcrc => 0x35
  | .fpCalc => 0x36

/-- The row of R74 whose `op` is the given byte, if there is one. -/
def opcodeOf (op : Byte) : Option Opcode := Opcode.all.find? (fun o => o.code == op)

/-- The command of a row, with the operand `arg` where the format has one (R73). -/
def Opcode.instr (arg : Byte) : Opcode → Instr
  | .nop => .nop
  | .sysRst => .sysRst
  | .sysErr => .sysErr
  | .crcClr => .crcClr
  | .crcUpd => .crcUpd arg
  | .crcRd => .crcRd
  | .tblRd => .tblRd arg
  | .fbStart => .fbStart
  | .fbByte => .fbByte arg
  | .fbEnd => .fbEnd
  | .fpRst => .fpRst
  | .fpPush => .fpPush arg
  | .fpEos => .fpEos
  | .fpStat => .fpStat
  | .fpGet => .fpGet
  | .fpRxcrc => .fpRxcrc
  | .fpCalc => .fpCalc

/-- Why a word is reserved (R73, R75). Both kinds execute alike, as `error(ILL)`. -/
inductive Reserved where
  /-- `op` is not one of the 17 listed. -/
  | unknownOpcode (op : Byte)
  /-- `op` is a format-`N` opcode and the low byte is not `0x00`. -/
  | lowByteNotZero (o : Opcode) (arg : Byte)
  deriving DecidableEq, Repr

/-- The decoding procedure of R73: total, every word is one command or reserved. -/
def decode (w : Word) : Except Reserved Instr :=
  match opcodeOf (opField w) with
  | none => .error (.unknownOpcode (opField w))
  | some o =>
    match o.format with
    | .a => .ok (o.instr (argField w))
    | .n => if argField w = 0 then .ok (o.instr 0) else .error (.lowByteNotZero o (argField w))

/-- The `match` column of R74: `op` over a zero low byte. -/
def Opcode.matchWord (o : Opcode) : Word := o.code.zeroExtend 16 <<< 8

/-- The `mask` column of R74. -/
def Opcode.maskWord (o : Opcode) : Word :=
  match o.format with
  | .n => 0xFFFF
  | .a => 0xFF00

/-- R73's second form of the procedure: the word is row `o`'s exactly when `cmd & mask = match`. -/
def Opcode.matches (o : Opcode) (w : Word) : Bool := w &&& o.maskWord == o.matchWord

/-- The word of a command: `(op << 8) | operand` for format `A`, `op << 8` for format `N` (R74, R88). -/
def encode (i : Instr) : Word :=
  match i.operand with
  | some b => (i.opcode.code.zeroExtend 16 <<< 8) ||| b.zeroExtend 16
  | none => i.opcode.code.zeroExtend 16 <<< 8

/-- The command a written command stands for, if it is well formed (R88). -/
def Source.instr (c : Source) : Option Instr :=
  if c.wf then some (c.opcode.instr (BitVec.ofNat 8 (c.operand.getD 0))) else none

/-- The command word whose bits are the low `nbits` bits of `w`, bit 0 the least significant; a bit not given
is 0. Commands have one length, 16 bits (R77). -/
def wordOfBits (nbits w : Nat) : Word := BitVec.ofNat 16 (w % 2 ^ nbits)

/-- The instruction the decoder reads from the bits `w` (none where the word is reserved). -/
def decodeTableWord (nbits w : Nat) : Option Instr :=
  match decode (wordOfBits nbits w) with
  | .ok i => some i
  | .error _ => none

end Sys2Proof
end

