-- ==== Sys2Proof/Config.lean ====
section
/-! DEFINITION. What is fixed when a block is built: the three named parameters of rule R7, and the one
free value of the model. -/

namespace Sys2Proof

/-- The parameters of R7. They are fixed when the block is built and never written at run time (R35); they are
plain data carried by the state, so that a statement over every state holds for every value of them. -/
structure Config where
  /-- `ACC_MAX`: the most bytes the accumulator can hold; `none` is `inf` (R7, decision D14). -/
  accMax : Option Nat
  /-- `HEX_LOWER_OK`: whether `a` to `f` are hex digits of a received CRC field (R7, decision D9). -/
  hexLowerOk : Bool
  /-- `WS`: the bytes trimmed as whitespace; the order and the repeats of the list carry no meaning
  (R7, decision D11). -/
  ws : List Byte
  deriving DecidableEq, Repr

/-- The parameters `State.reset` is built with: R7's defaults for `HEX_LOWER_OK` and `WS`.
`ACC_MAX` is `OPEN` in R7; `inf`, with which "the block matches D00 exactly" (R215), is taken.
DESIGN CHOICE, log entry 1. -/
def Config.standard : Config where
  accMax := none
  hexLowerOk := true
  ws := [0x09, 0x0A, 0x0B, 0x0C, 0x0D, 0x20]

/-- FREE VALUE (log entry 2): the byte found at an offset of the accumulator that does not exist. By R38 (c) and
R51 no reachable state reads one; nothing is known of it, so nothing can be proved from it. -/
opaque Config.byteOutsideAcc (acc : List Byte) (offset : Nat) : Byte

end Sys2Proof
end

