-- ==== Sys2Proof/Machine/State.lean ====
section
/-! DEFINITION. The machine's state (rules R20 to R40), what the host can put before it, its reset, and the reasons a
step could stop. -/

namespace Sys2Proof.Machine

/-- The builder's sequencing state `FB_ST` (R24): `idle` (0), no frame open; `body` (1), STX has been emitted and ETX
has not. -/
inductive FbState where
  | idle
  | body
  deriving DecidableEq, Repr

/-- The latched classification `RES` (R29). Codes 9 to 15 "never" occur and have no constructor (R86, U12 of
93_implementation_defined.md); `Flags.lean` gives the codes. -/
inductive ResultCode where
  /-- 0: no verdict yet, D00's "keep accumulating" -/
  | pending
  /-- 1: the reply is the control byte ACK -/
  | ack
  /-- 2: the reply is the control byte NAK -/
  | nak
  /-- 3: a complete frame whose checksum agrees -/
  | framedText
  /-- 4: the stream ended on a non-empty accumulator without a verdict -/
  | rawText
  /-- 5: a complete frame whose CRC field is not hexadecimal -/
  | crcFormatError
  /-- 6: a complete frame whose checksum differs -/
  | crcMismatchError
  /-- 7: the stream ended with nothing received -/
  | noData
  /-- 8: a byte arrived for a full accumulator (R215) -/
  | overflow
  deriving DecidableEq, Repr

/-- What the outside does to the block between two steps (R12, R240, R242): the host presents a command word, or the
platform resets the hardware. -/
inductive HostInput where
  | command (w : Word)
  | hardwareReset
  deriving DecidableEq, Repr

/-- The complete architectural state of one block (R20), its parameters (R7), and its two ports (R50). The table `T`
is a constant and no field (R21). -/
structure State where
  /-- The parameters of R7. No step changes them (R35). -/
  cfg : Config
  /-- `CRC`, the running checksum of the CRC Engine (R22) -/
  crc : Word
  /-- `NE`, 1 once a byte has been absorbed (R23) -/
  ne : Bool
  /-- `FB_ST`, the builder's sequencing state (R24) -/
  fbSt : FbState
  /-- `FB_CRC`, the builder's running checksum (R25) -/
  fbCrc : Word
  /-- `TX`, every byte emitted since hardware reset, oldest first (R26) -/
  tx : List Byte
  /-- `ACC`, the accumulator (R27) -/
  acc : List Byte
  /-- `EOSF`, the end-of-stream flag (R28) -/
  eosf : Bool
  /-- `RES`, the latched classification (R29) -/
  res : ResultCode
  /-- `LO`, the offset in `ACC` of the text's first byte (R30) -/
  lo : Nat
  /-- `HI`, the offset in `ACC` just past the text's last byte (R30) -/
  hi : Nat
  /-- `RP`, the offset in `ACC` of the next text byte to read (R30) -/
  rp : Nat
  /-- `RXCRC`, the received checksum (R31) -/
  rxcrc : Word
  /-- `CALC`, the computed checksum (R31) -/
  calcCrc : Word
  /-- `ERR`, the sticky error bits: 0 `ILL`, 1 `SEQ`, 2 `OVF` (R32) -/
  err : BitVec 3
  /-- MODEL'S FIELD: what the outside will do, in order, the next first (log entry 3). The command port of R50 with
  the host behind it; the block reads one entry a step. -/
  inbox : List HostInput
  /-- MODEL'S FIELD: the response port of R50, the word returned by the command of the step just taken, `none` where
  that step ran no command (R40, R71; log entry 4). -/
  resp : Option Word
  deriving DecidableEq, Repr

/-- The state after hardware reset of a block built with the parameters `cfg` (R39, R241): every field at R39's
value; nothing is waiting at the command port and nothing has been answered. -/
def State.initial (cfg : Config) : State where
  cfg := cfg
  crc := 0xFFFF
  ne := false
  fbSt := .idle
  fbCrc := 0xFFFF
  tx := []
  acc := []
  eosf := false
  res := .pending
  lo := 0
  hi := 0
  rp := 0
  rxcrc := 0x0000
  calcCrc := 0x0000
  err := 0b000
  inbox := []
  resp := none

/-- The machine right after hardware reset (R39, R241), built with the parameters of `Config.standard`
(log entry 1). -/
def State.reset : State := State.initial Config.standard

/-- The reasons a step stops the machine: NONE. "The block never traps" (R210), every word has a behaviour (R76), and
93_implementation_defined.md says that every command completes in every state. What the spec asks to be COUNTED as a
fault of a run, `RES = 8` (R215), is an ordinary state, and `Safety.lean` names it. Safe or unsafe does not arise. -/
inductive Fault where
  deriving DecidableEq, Repr

/-- The reasons the model refuses a command. -/
inductive Refusal where
  /-- Raised by an arm of `exec` for a command with no meaning in the model. No arm raises it. Safe. -/
  | notModelled (mnemonic : String)
  deriving DecidableEq, Repr

/-- What a command's meaning answers. -/
abbrev Answer := Host.Outcome State Fault Refusal

end Sys2Proof.Machine
end

