-- ==== Sys2Proof/Machine/Crc.lean ====
section
/-! DEFINITION. The CRC functions the three units share: the table `T` (R100), `upd` (R102), `crc16` (R103), and the
bit-serial form of `upd` (R105). -/

namespace Sys2Proof.Machine

/-- `POLY = 0x1021` (R6). -/
def crcPoly : Word := 0x1021

/-- `INIT = 0xFFFF` (R6). -/
def crcInit : Word := 0xFFFF

/-- One of R100's eight shifts: bit 15 is tested before the shift, the polynomial goes in after it (decision D29). -/
def crcShift (r : Word) : Word := if r.getLsbD 15 then (r <<< 1) ^^^ crcPoly else r <<< 1

/-- `n` shifts (R100). -/
def crcShifts : Nat → Word → Word
  | 0, r => r
  | n + 1, r => crcShifts n (crcShift r)

/-- `T[i]`, the table entry (R21, R100): a constant of the machine, eight shifts of `i << 8`. -/
def tableEntry (i : Byte) : Word := crcShifts 8 (i.zeroExtend 16 <<< 8)

/-- `upd(c, b)` (R102): the index is `((c >> 8) ^ b) & 0xFF`. -/
def upd (c : Word) (b : Byte) : Word :=
  (c <<< 8) ^^^ tableEntry (((c >>> 8) ^^^ b.zeroExtend 16).setWidth 8)

/-- The fold of `upd` over a byte sequence from a starting value (R103). -/
def crcFold (c : Word) (s : List Byte) : Word := s.foldl upd c

/-- `crc16(s)` (R103): `0x0000` for the empty sequence, else the fold from `0xFFFF`. -/
def crc16 (s : List Byte) : Word :=
  match s with
  | [] => 0x0000
  | b :: t => crcFold crcInit (b :: t)

/-- `upd` without the table (R105): the byte meets the high byte, then eight shifts. -/
def updBitSerial (c : Word) (b : Byte) : Word := crcShifts 8 (c ^^^ (b.zeroExtend 16 <<< 8))

end Sys2Proof.Machine
end

