-- ==== Sys2Proof/Machine/Flags.lean ====
section
/-! DEFINITION. Every one-bit status and every status layout of the block: the bits of `ERR` (R32, R87), the codes of
`RES` (R29, R86), the status word (R78) and the `FP.GET` word (R79). The block has no arithmetic condition codes
(R34). -/

namespace Sys2Proof.Machine

/-- `ERR.ILL`, bit 0 (R32, R87). -/
def errIll : BitVec 3 := 0b001

/-- `ERR.SEQ`, bit 1 (R32, R87). -/
def errSeq : BitVec 3 := 0b010

/-- `ERR.OVF`, bit 2 (R32, R87). -/
def errOvf : BitVec 3 := 0b100

/-- The code column of R29. -/
def ResultCode.code : ResultCode → BitVec 4
  | .pending => 0
  | .ack => 1
  | .nak => 2
  | .framedText => 3
  | .rawText => 4
  | .crcFormatError => 5
  | .crcMismatchError => 6
  | .noData => 7
  | .overflow => 8

/-- The "has text" column of R29. -/
def ResultCode.hasText : ResultCode → Bool
  | .framedText => true
  | .rawText => true
  | .pending => false
  | .ack => false
  | .nak => false
  | .crcFormatError => false
  | .crcMismatchError => false
  | .noData => false
  | .overflow => false

/-- The "terminal" column of R29: a verdict is latched. -/
def ResultCode.terminal (r : ResultCode) : Bool := r != .pending

/-- The code of `FB_ST` (R24). -/
def FbState.code : FbState → BitVec 1
  | .idle => 0
  | .body => 1

/-- `statw(drop)` (R78): bits 15:9 zero, `DROP`, bits 7:5 zero, `EOSF`, `RES`. -/
def State.statw (s : State) (drop : Bool) : Word :=
  0#7 ++ BitVec.ofBool drop ++ 0#3 ++ BitVec.ofBool s.eosf ++ s.res.code

/-- The `FP.GET` word of a text byte: `END = 0` (R79). -/
def textWord (b : Byte) : Word := b.zeroExtend 16

/-- The `FP.GET` word when there is no further byte: `END = 1`, the byte field `0x00` (R79). -/
def endWord : Word := 0x0100

/-- The `SYS.ERR` word (R87): the three bits, bits 15:3 zero. -/
def State.errWord (s : State) : Word := s.err.zeroExtend 16

end Sys2Proof.Machine
end

