-- ==== Sys2Proof/Machine/Operands.lean ====
section
/-! DEFINITION. The operand bytes and their forms: the control bytes (R6, R82), and the hex CRC field, the one place
where a 16-bit value meets four bytes (R52 (a), R84, R85). A command's own operand is a byte used as it stands (R72)
and needs no computation. -/

namespace Sys2Proof.Machine

/-- `STX = 0x02` (R6, R82). -/
def stx : Byte := 0x02

/-- `ETX = 0x03` (R6, R82). -/
def etx : Byte := 0x03

/-- `ACK = 0x06` (R6, R82). -/
def ackByte : Byte := 0x06

/-- `NAK = 0x15` (R6, R82). -/
def nakByte : Byte := 0x15

/-- `hexdigit(n)` (R84): the upper-case ASCII digit of a nibble. -/
def hexdigit (n : BitVec 4) : Byte :=
  if n.toNat ≤ 9 then BitVec.ofNat 8 (0x30 + n.toNat) else BitVec.ofNat 8 (0x41 + (n.toNat - 10))

/-- `hex4(v)` (R84): four digits, most significant nibble first, leading zeros kept. -/
def hex4 (v : Word) : List Byte :=
  [hexdigit (v.extractLsb' 12 4), hexdigit (v.extractLsb' 8 4), hexdigit (v.extractLsb' 4 4), hexdigit (v.extractLsb' 0 4)]

/-- `hexval(b)` (R85): the nibble of an ASCII hex digit, lower case only under `HEX_LOWER_OK`. -/
def hexval (cfg : Config) (b : Byte) : Option (BitVec 4) :=
  if 0x30 ≤ b.toNat ∧ b.toNat ≤ 0x39 then some (BitVec.ofNat 4 (b.toNat - 0x30))
  else if 0x41 ≤ b.toNat ∧ b.toNat ≤ 0x46 then some (BitVec.ofNat 4 (b.toNat - 0x41 + 10))
  else if 0x61 ≤ b.toNat ∧ b.toNat ≤ 0x66 ∧ cfg.hexLowerOk = true then some (BitVec.ofNat 4 (b.toNat - 0x61 + 10))
  else none

/-- `parsehex4(f)` (R85): the value of four digits, most significant first, or `none` when one of the bytes is no
digit. The parser hands it four bytes; another length has no value. -/
def parsehex4 (cfg : Config) : List Byte → Option Word
  | [f0, f1, f2, f3] =>
    match hexval cfg f0, hexval cfg f1, hexval cfg f2, hexval cfg f3 with
    | some d0, some d1, some d2, some d3 =>
      some ((d0.zeroExtend 16 <<< 12) ||| (d1.zeroExtend 16 <<< 8) ||| (d2.zeroExtend 16 <<< 4) ||| d3.zeroExtend 16)
    | _, _, _, _ => none
  | _ => none

end Sys2Proof.Machine
end

