-- ==== Sys2Proof/Machine/Ops.lean ====
section
/-! DEFINITION. The named operations over the ports, the registers and the byte sequences, which the meanings are
written over. The block has no addressed memory (R50): `T[i]`, `ACC[i]`, the append to `ACC` and `emit` are the only
accesses. It has no exception to take and none to return from (R210, R219, R220): what stands in their place is
`State.error`, the one way a command errs (R212). -/

namespace Sys2Proof.Machine

/-- `resp <- v` (R10, R71). -/
def State.respond (s : State) (v : Word) : State := { s with resp := some v }

/-- Set sticky bits of `ERR`; a set bit stays set (R32). -/
def State.setErr (s : State) (bit : BitVec 3) : State := { s with err := s.err ||| bit }

/-- `error(X)` (R10, R212), for `X = ILL` and `X = SEQ`: the sticky bit, the response `0xFFFF`, nothing else. -/
def State.error (s : State) (bit : BitVec 3) : State := (s.setErr bit).respond 0xFFFF

/-- `emit(s)` (R10, R26): append bytes to the output history. -/
def State.emit (s : State) (bytes : List Byte) : State := { s with tx := s.tx ++ bytes }

/-- The CRC Engine's registers at their reset values (R39, R106). -/
def State.clearCrc (s : State) : State := { s with crc := crcInit, ne := false }

/-- The builder's registers at their reset values; `TX` keeps its history (R39, R201). -/
def State.clearBuilder (s : State) : State := { s with fbSt := .idle, fbCrc := crcInit }

/-- The parser's registers at their reset values (R39, R156, R240 (c)). -/
def State.clearParser (s : State) : State :=
  { s with acc := [], eosf := false, res := .pending, lo := 0, hi := 0, rp := 0, rxcrc := 0x0000, calcCrc := 0x0000 }

/-- `ERR <- 0` (R201): only the two wider resets do it (R32). -/
def State.clearErr (s : State) : State := { s with err := 0b000 }

/-- `len(ACC) = ACC_MAX`: never true with `inf` (R157, R215). -/
def State.accFull (s : State) : Bool := s.cfg.accMax == some s.acc.length

/-- `ACC <- ACC ++ [b]` (R10). -/
def State.append (s : State) (b : Byte) : State := { s with acc := s.acc ++ [b] }

/-- `ACC[i]` (R10, R51). No reachable state asks for an offset that does not exist; there it is a free value
(log entry 2). -/
def State.accByte (s : State) (i : Nat) : Byte := (s.acc[i]?).getD (Config.byteOutsideAcc s.acc i)

/-- The text of a result that has one, `ACC[LO..HI-1]` (R30). -/
def State.text (s : State) : List Byte := (s.acc.drop s.lo).take (s.hi - s.lo)

/-- The part of the text that `FP.GET` has yet to return, `ACC[RP..HI-1]` (R30, R160). -/
def State.unread (s : State) : List Byte := (s.acc.drop s.rp).take (s.hi - s.rp)

/-- Hardware reset (R240 (a), R242): every register at the value of R39 and a new, empty `TX` history. The parameters
are the block's construction; what the outside does next is not the block's to change. -/
def State.hardwareReset (s : State) : State := { State.initial s.cfg with inbox := s.inbox }

/-- A step with nothing at the ports (R12, R244): "no spontaneous state change"; the response port shows no word, since
no command was executed (R40). -/
def State.idle (s : State) : State := { s with resp := none }

/-- Take the next thing the outside does, if there is one (R57: one at a time, in the order presented). -/
def State.takeInput (s : State) : Option (HostInput × State) :=
  match s.inbox with
  | [] => none
  | x :: rest => some (x, { s with inbox := rest })

/-- What a reserved word does, whichever kind it is (R75, R213): `error(ILL)`, no other effect. -/
def execReserved (r : Reserved) (s : State) : Answer :=
  match r with
  | .unknownOpcode _ => .next (s.error errIll)
  | .lowByteNotZero _ _ => .next (s.error errIll)

end Sys2Proof.Machine
end

