-- ==== Sys2Proof/Machine/CrcEngine.lean ====
section
/-! DEFINITION. The CRC Engine's commands (40_crc_engine.md, rules R106 to R109). -/

namespace Sys2Proof.Machine

/-- `CRC.CLR` (R106): start a new checksum. -/
def execCrcClr (s : State) : Answer := .next (s.clearCrc.respond 0x0000)

/-- `CRC.UPD b` (R107): absorb one byte. -/
def execCrcUpd (b : Byte) (s : State) : Answer :=
  .next ({ s with crc := upd s.crc b, ne := true }.respond 0x0000)

/-- `CRC.RD` (R108): the checksum of the bytes absorbed, `0x0000` when there were none. -/
def execCrcRd (s : State) : Answer := .next (s.respond (if s.ne then s.crc else 0x0000))

/-- `TBL.RD i` (R109): one table entry. -/
def execTblRd (i : Byte) (s : State) : Answer := .next (s.respond (tableEntry i))

end Sys2Proof.Machine
end

