-- ==== Sys2Proof/Machine/FrameBuilder.lean ====
section
/-! DEFINITION. The Frame Builder (41_frame_builder.md): the function `build` (R130) and the three commands (R131 to
R133). -/

namespace Sys2Proof.Machine

/-- `build(s)` (R80, R130): STX, the body unescaped, ETX, the checksum of body and ETX in four digits. -/
def build (body : List Byte) : List Byte := [stx] ++ body ++ [etx] ++ hex4 (crc16 (body ++ [etx]))

/-- `FB.START` (R131): open a frame; `SEQ` when one is open. -/
def execFbStart (s : State) : Answer :=
  match s.fbSt with
  | .body => .next (s.error errSeq)
  | .idle => .next ({ s.emit [stx] with fbCrc := crcInit, fbSt := .body }.respond 0x0000)

/-- `FB.BYTE b` (R132): emit one body byte as it is; `SEQ` when no frame is open. -/
def execFbByte (b : Byte) (s : State) : Answer :=
  match s.fbSt with
  | .idle => .next (s.error errSeq)
  | .body => .next ({ s.emit [b] with fbCrc := upd s.fbCrc b }.respond 0x0000)

/-- `FB.END` (R133): ETX and the four digits, the frame closed, the checksum returned; `SEQ` when no frame is open. -/
def execFbEnd (s : State) : Answer :=
  match s.fbSt with
  | .idle => .next (s.error errSeq)
  | .body =>
    let c := upd s.fbCrc etx
    .next ({ (s.emit [etx]).emit (hex4 c) with fbCrc := c, fbSt := .idle }.respond c)

end Sys2Proof.Machine
end

