-- ==== Sys2Proof/Machine/FrameParser.lean ====
section
/-! DEFINITION. The Frame Parser (42_frame_parser.md): `first_etx`, `trim`, `classify`, `classify_eos` (R152 to R155)
and the seven commands (R156 to R162). -/

namespace Sys2Proof.Machine

/-- The offset of the first ETX of a sequence whose first byte stands at offset `k`. -/
def etxFrom (k : Nat) : List Byte → Option Nat
  | [] => none
  | b :: t => if b = etx then some k else etxFrom (k + 1) t

/-- `first_etx(s)` (R152): the least offset `≥ 1` that holds ETX; offset 0 is never considered. -/
def firstEtx : List Byte → Option Nat
  | [] => none
  | _ :: t => etxFrom 1 t

/-- `s[i]` is a byte of the sequence and in `WS`. -/
def whitespaceAt (cfg : Config) (s : List Byte) (i : Nat) : Bool :=
  match s[i]? with
  | some b => cfg.ws.contains b
  | none => false

/-- The first loop of R153, `n` bytes being left from `lo`: drop whitespace from the front. -/
def trimFront (cfg : Config) (s : List Byte) (lo : Nat) : Nat → Nat
  | 0 => lo
  | n + 1 => if whitespaceAt cfg s lo then trimFront cfg s (lo + 1) n else lo

/-- The second loop of R153, `n` bytes being left from `lo`: drop whitespace from the back. -/
def trimBack (cfg : Config) (s : List Byte) (lo : Nat) : Nat → Nat
  | 0 => lo
  | n + 1 => if whitespaceAt cfg s (lo + n) then trimBack cfg s lo n else lo + (n + 1)

/-- `trim(s, lo, hi)` (R153): the front first, then the back. -/
def trim (cfg : Config) (s : List Byte) (lo hi : Nat) : Nat × Nat :=
  let lo' := trimFront cfg s lo (hi - lo)
  (lo', trimBack cfg s lo' (hi - lo'))

/-- A verdict on an accumulator (R154, R155), with the values that go with it: the received checksum `v`, the computed
one `c`, the bounds of the text. -/
inductive Verdict where
  | pending
  | ack
  | nak
  | crcFormatError
  | crcMismatchError (v c : Word)
  | framedText (lo hi : Nat) (v c : Word)
  | rawText (lo hi : Nat)
  | noData
  deriving DecidableEq, Repr

/-- The CRC field of a frame whose ETX stands at offset `e`: `s[e+1 .. e+4]` (R154). -/
def crcField (s : List Byte) (e : Nat) : List Byte := (s.drop (e + 1)).take 4

/-- What the checksum of a received frame covers: `s[1 .. e]`, payload and ETX (R83, R154). -/
def crcCovered (s : List Byte) (e : Nat) : List Byte := (s.drop 1).take e

/-- The verdict on a frame that is complete, its ETX at offset `e` and four bytes after it (R154): the format before
the checksum. -/
def classifyFrame (cfg : Config) (s : List Byte) (e : Nat) : Verdict :=
  match parsehex4 cfg (crcField s e) with
  | none => .crcFormatError
  | some v =>
    let c := crc16 (crcCovered s e)
    if c = v then
      let (lo, hi) := trim cfg s 1 e
      .framedText lo hi v c
    else .crcMismatchError v c

/-- `classify(s)` (R150 steps 1 to 4, R154): the verdict while the stream is open. -/
def classify (cfg : Config) (s : List Byte) : Verdict :=
  match s with
  | [] => .pending
  | b :: _ =>
    if b = ackByte then .ack
    else if b = nakByte then .nak
    else if b = stx then
      match firstEtx s with
      | none => .pending
      | some e => if s.length < e + 5 then .pending else classifyFrame cfg s e
    else .pending

/-- `classify_eos(s)` (R150 steps 5 and 6, R155): the verdict when the stream ends on a pending parser. -/
def classifyEos (cfg : Config) (s : List Byte) : Verdict :=
  match s with
  | [] => .noData
  | _ :: _ =>
    let (lo, hi) := trim cfg s 0 s.length
    .rawText lo hi

/-- Latch a verdict: the registers R157 and R158 assign for it, and no other. -/
def State.latch (s : State) : Verdict → State
  | .pending => s
  | .ack => { s with res := .ack }
  | .nak => { s with res := .nak }
  | .crcFormatError => { s with res := .crcFormatError }
  | .crcMismatchError v c => { s with res := .crcMismatchError, rxcrc := v, calcCrc := c }
  | .framedText lo hi v c => { s with res := .framedText, rxcrc := v, calcCrc := c, lo := lo, hi := hi, rp := lo }
  | .rawText lo hi => { s with res := .rawText, lo := lo, hi := hi, rp := lo }
  | .noData => { s with res := .noData }

/-- Return the status word of the state as it stands (R78, R157: "built from the state *after* the assignments"). -/
def State.respondStatus (s : State) (drop : Bool) : State := s.respond (s.statw drop)

/-- `FP.RST` (R156): clear the parser for a new reply. -/
def execFpRst (s : State) : Answer := .next (s.clearParser.respond 0x0000)

/-- `FP.PUSH b` (R157, R215, R218 (3)): dropped after a verdict; `Overflow` on a full accumulator; else appended and
classified. -/
def execFpPush (b : Byte) (s : State) : Answer :=
  if s.res.terminal then .next (s.respondStatus true)
  else if s.accFull then .next (({ s with res := .overflow }.setErr errOvf).respondStatus true)
  else
    let t := s.append b
    .next ((t.latch (classify t.cfg t.acc)).respondStatus false)

/-- `FP.EOS` (R158): no effect after a verdict; else `EOSF` and the end-of-stream verdict. -/
def execFpEos (s : State) : Answer :=
  if s.res.terminal then .next (s.respondStatus true)
  else
    let t := { s with eosf := true }
    .next ((t.latch (classifyEos t.cfg t.acc)).respondStatus false)

/-- `FP.STAT` (R159): the parser status. -/
def execFpStat (s : State) : Answer := .next (s.respondStatus false)

/-- `FP.GET` (R160): the next byte of the text, or `END`. -/
def execFpGet (s : State) : Answer :=
  if s.rp < s.hi then .next ({ s with rp := s.rp + 1 }.respond (textWord (s.accByte s.rp)))
  else .next (s.respond endWord)

/-- `FP.RXCRC` (R161): the received checksum. -/
def execFpRxcrc (s : State) : Answer := .next (s.respond s.rxcrc)

/-- `FP.CALC` (R162): the checksum the parser computed. -/
def execFpCalc (s : State) : Answer := .next (s.respond s.calcCrc)

end Sys2Proof.Machine
end

