-- ==== Sys2Proof/Machine/System.lean ====
section
/-! DEFINITION. The system commands (43_system.md, rules R200 to R202). -/

namespace Sys2Proof.Machine

/-- `NOP` (R200). -/
def execNop (s : State) : Answer := .next (s.respond 0x0000)

/-- `SYS.RST` (R201): soft reset of the three units and of `ERR`; the `TX` history is kept. -/
def execSysRst (s : State) : Answer :=
  .next (s.clearCrc.clearBuilder.clearParser.clearErr.respond 0x0000)

/-- `SYS.ERR` (R202): the sticky register; reading does not clear it. -/
def execSysErr (s : State) : Answer := .next (s.respond s.errWord)

end Sys2Proof.Machine
end

