-- ==== Sys2Proof/Machine/Dispatch.lean ====
section
/-! DEFINITION. The opcode map's semantics column (R74): one arm per command, each one call of its meaning. -/

namespace Sys2Proof.Machine

def exec (i : Instr) (s : State) : Host.Outcome State Fault Refusal :=
  match i with
  | .nop => Sys2Proof.Machine.execNop s
  | .sysRst => Sys2Proof.Machine.execSysRst s
  | .sysErr => Sys2Proof.Machine.execSysErr s
  | .crcClr => Sys2Proof.Machine.execCrcClr s
  | .crcUpd b => Sys2Proof.Machine.execCrcUpd b s
  | .crcRd => Sys2Proof.Machine.execCrcRd s
  | .tblRd k => Sys2Proof.Machine.execTblRd k s
  | .fbStart => Sys2Proof.Machine.execFbStart s
  | .fbByte b => Sys2Proof.Machine.execFbByte b s
  | .fbEnd => Sys2Proof.Machine.execFbEnd s
  | .fpRst => Sys2Proof.Machine.execFpRst s
  | .fpPush b => Sys2Proof.Machine.execFpPush b s
  | .fpEos => Sys2Proof.Machine.execFpEos s
  | .fpStat => Sys2Proof.Machine.execFpStat s
  | .fpGet => Sys2Proof.Machine.execFpGet s
  | .fpRxcrc => Sys2Proof.Machine.execFpRxcrc s
  | .fpCalc => Sys2Proof.Machine.execFpCalc s

end Sys2Proof.Machine
end

