-- ==== Sys2Proof/Machine/Run.lean ====
section
/-! DEFINITION. Running one thing the outside does: a command word, decoded and executed or reserved (R73, R75), or a
hardware reset (R240, R242). -/

namespace Sys2Proof.Machine

/-- Execute one command word: the command it decodes to, or the reserved word's `error(ILL)` (R73, R75). -/
def runWord (w : Word) (s : State) : Answer :=
  match decode w with
  | .ok i => exec i s
  | .error r => execReserved r s

/-- What one thing the outside does makes of the state (R12, R240, R242). -/
def runInput (x : HostInput) (s : State) : Answer :=
  match x with
  | .command w => runWord w s
  | .hardwareReset => .next s.hardwareReset

end Sys2Proof.Machine
end

