-- ==== Sys2Proof/Machine/Step.lean ====
section
/-! DEFINITION. One step of the block (R11, R12, R57): the next thing the outside does, taken whole. The block has no
program counter and fetches nothing (R33); "the order of execution is the order of arrival". -/

namespace Sys2Proof.Machine

/-- One step: take the next input and run it; where there is none, nothing happens (R12, R244). -/
def step (s : State) : Host.Outcome State Fault Refusal :=
  match s.takeInput with
  | none => .next s.idle
  | some (x, t) => runInput x t

/-- `s` with the command word of the bits `w` presented at the command port, before anything else the outside will do:
the next step executes it (log entry 3). -/
def State.withFetchWord (s : State) (nbits w : Nat) : State :=
  { s with inbox := .command (wordOfBits nbits w) :: s.inbox }

end Sys2Proof.Machine
end

