-- ==== Sys2Proof/Machine/Assembler.lean ====
section
/-! DEFINITION. The assembler syntax of R88: one command a line, its mnemonic and, for format `A`, one operand written
`0xNN`, in decimal, or as an ASCII character in single quotes; `;` starts a comment. What R88 leaves open (blanks, the
case of letters, the digits of `0xNN`) is log entry 6. Text is a list of characters. -/

namespace Sys2Proof.Machine

/-- The mnemonics of R74, letter for letter. -/
def mnemonicText : Opcode → List Char
  | .nop => ['N', 'O', 'P']
  | .sysRst => ['S', 'Y', 'S', '.', 'R', 'S', 'T']
  | .sysErr => ['S', 'Y', 'S', '.', 'E', 'R', 'R']
  | .crcClr => ['C', 'R', 'C', '.', 'C', 'L', 'R']
  | .crcUpd => ['C', 'R', 'C', '.', 'U', 'P', 'D']
  | .crcRd => ['C', 'R', 'C', '.', 'R', 'D']
  | .tblRd => ['T', 'B', 'L', '.', 'R', 'D']
  | .fbStart => ['F', 'B', '.', 'S', 'T', 'A', 'R', 'T']
  | .fbByte => ['F', 'B', '.', 'B', 'Y', 'T', 'E']
  | .fbEnd => ['F', 'B', '.', 'E', 'N', 'D']
  | .fpRst => ['F', 'P', '.', 'R', 'S', 'T']
  | .fpPush => ['F', 'P', '.', 'P', 'U', 'S', 'H']
  | .fpEos => ['F', 'P', '.', 'E', 'O', 'S']
  | .fpStat => ['F', 'P', '.', 'S', 'T', 'A', 'T']
  | .fpGet => ['F', 'P', '.', 'G', 'E', 'T']
  | .fpRxcrc => ['F', 'P', '.', 'R', 'X', 'C', 'R', 'C']
  | .fpCalc => ['F', 'P', '.', 'C', 'A', 'L', 'C']

/-- Why a line is no command. -/
inductive AsmError where
  /-- the first word is no mnemonic of R74 -/
  | unknownMnemonic
  /-- the operand is in none of the three forms of R88 -/
  | badOperand
  /-- an operand where the format has none, none where it has one, or one above 255 -/
  | illFormed
  /-- something other than a comment follows the command -/
  | trailing
  deriving DecidableEq, Repr

/-- A blank of a line. -/
def isBlank (c : Char) : Bool := c == ' ' || c == '\t'

/-- A character of a word: neither a blank nor the start of a comment. -/
def isWordChar (c : Char) : Bool := !isBlank c && c != ';'

/-- A line from its first character that is no blank. -/
def skipBlanks (cs : List Char) : List Char := cs.dropWhile isBlank

/-- The value of a decimal digit. -/
def decimalDigit (c : Char) : Option Nat :=
  if 48 ≤ c.toNat ∧ c.toNat ≤ 57 then some (c.toNat - 48) else none

/-- The value of a hexadecimal digit, in either case. -/
def hexDigitValue (c : Char) : Option Nat :=
  if 48 ≤ c.toNat ∧ c.toNat ≤ 57 then some (c.toNat - 48)
  else if 65 ≤ c.toNat ∧ c.toNat ≤ 70 then some (c.toNat - 65 + 10)
  else if 97 ≤ c.toNat ∧ c.toNat ≤ 102 then some (c.toNat - 97 + 10)
  else none

/-- A decimal number read on from the value `n`. -/
def decimalFrom (n : Nat) : List Char → Option Nat
  | [] => some n
  | c :: rest =>
    match decimalDigit c with
    | some d => decimalFrom (10 * n + d) rest
    | none => none

/-- A number of R88: `0xNN` or decimal. -/
def numberValue : List Char → Option Nat
  | [] => none
  | ['0', 'x', h, l] =>
    match hexDigitValue h, hexDigitValue l with
    | some a, some b => some (16 * a + b)
    | _, _ => none
  | cs => decimalFrom 0 cs

/-- An operand of R88, and what follows it on the line. -/
def operandValue : List Char → Option (Nat × List Char)
  | '\'' :: c :: '\'' :: rest => if c.toNat ≤ 127 then some (c.toNat, rest) else none
  | cs => (numberValue (cs.takeWhile isWordChar)).map (fun n => (n, cs.dropWhile isWordChar))

/-- Nothing but blanks and a comment is left of a line. -/
def lineEnds (cs : List Char) : Bool :=
  match skipBlanks cs with
  | [] => true
  | c :: _ => c == ';'

/-- The row of R74 a word names. -/
def opcodeNamed (cs : List Char) : Option Opcode := Opcode.all.find? (fun o => mnemonicText o == cs)

/-- The command a mnemonic stands for with the operand written after it, if there is one. -/
def withOperand (o : Opcode) (rest : List Char) : Except AsmError Instr :=
  if lineEnds rest then
    match Source.instr ⟨o, none⟩ with
    | some i => .ok i
    | none => .error .illFormed
  else
    match operandValue rest with
    | none => .error .badOperand
    | some (n, after) =>
      if lineEnds after then
        match Source.instr ⟨o, some n⟩ with
        | some i => .ok i
        | none => .error .illFormed
      else .error .trailing

/-- One line of R88: a command, or nothing on a line that is blank or a comment. -/
def assembleLine (line : List Char) : Except AsmError (Option Instr) :=
  let cs := skipBlanks line
  if lineEnds cs then .ok none
  else
    match opcodeNamed (cs.takeWhile isWordChar) with
    | none => .error .unknownMnemonic
    | some o =>
      match withOperand o (skipBlanks (cs.dropWhile isWordChar)) with
      | .ok i => .ok (some i)
      | .error e => .error e

/-- Lines into command words, the first bad line ending it (R88). -/
def assembleLines : List (List Char) → Except AsmError (List Word)
  | [] => .ok []
  | line :: rest =>
    match assembleLine line, assembleLines rest with
    | .ok (some i), .ok ws => .ok (encode i :: ws)
    | .ok none, .ok ws => .ok ws
    | .error e, _ => .error e
    | .ok _, .error e => .error e

/-- The upper-case hexadecimal digit of a nibble. -/
def nibbleChar (n : Nat) : Char := if n ≤ 9 then Char.ofNat (48 + n) else Char.ofNat (55 + n)

/-- A command written down (R88), its operand as `0xNN`. -/
def writeCommand (i : Instr) : List Char :=
  match i.operand with
  | none => mnemonicText i.opcode
  | some b => mnemonicText i.opcode ++ [' ', '0', 'x', nibbleChar (b.toNat / 16), nibbleChar (b.toNat % 16)]

end Sys2Proof.Machine
end

