-- ==== Sys2Proof/Machine/Blocks.lean ====
section
/-! DEFINITION. Several blocks side by side (R58, R225): each has its own copy of every register, they share the constant
`T` alone and have no signal between them. Which of them acts next is the outside's choice. -/

namespace Sys2Proof.Machine

/-- One step of block number `k`; nothing where there is no such block or its step stops. -/
def stepBlock (k : Nat) (blocks : List State) : Option (List State) :=
  match blocks[k]? with
  | none => none
  | some s =>
    match step s with
    | .next t => some (blocks.set k t)
    | .fault _ => none
    | .refused _ => none

end Sys2Proof.Machine
end

