-- ==== Sys2Proof/Machine/Pseudo.lean ====
section
/-! DEFINITION. Commands in sequence, and the four pseudo-commands of R89: fixed expansions into commands, with no
encoding of their own. -/

namespace Sys2Proof.Machine

/-- Execute commands in order (R57); a command that stops ends the sequence. -/
def runCommands : List Instr → State → Answer
  | [], s => .next s
  | i :: rest, s =>
    match exec i s with
    | .next t => runCommands rest t
    | .fault f => .fault f
    | .refused r => .refused r

/-- The response words of commands executed in order (R57, R71). -/
def responses : List Instr → State → List Word
  | [], _ => []
  | i :: rest, s =>
    match exec i s with
    | .next t => t.resp.toList ++ responses rest t
    | .fault _ => []
    | .refused _ => []

/-- `CRC.COMPUTE s` (R89). -/
def crcCompute (s : List Byte) : List Instr := [.crcClr] ++ s.map .crcUpd ++ [.crcRd]

/-- `FB.BUILD s` (R89). -/
def fbBuild (s : List Byte) : List Instr := [.fbStart] ++ s.map .fbByte ++ [.fbEnd]

/-- `FP.FEED s` (R89): nothing when `s` is empty. -/
def fpFeed (s : List Byte) : List Instr := s.map .fpPush

/-- One whole reply put through the parser as R164 has it: clear, push every byte in order, signal the end of the stream
(which has no effect on a parser that has decided, R158). What R229 asks of a host is `FollowsHostDuties`. -/
def fpReply (s : List Byte) : List Instr := [.fpRst] ++ fpFeed s ++ [.fpEos]

/-- The byte an `FP.GET` word carries, if it is not `END` (R79). -/
def textByte (w : Word) : Option Byte := if w.getLsbD 8 then none else some (w.extractLsb' 0 8)

/-- The text bytes the host reads in a sequence of commands: what its `FP.GET`s return before `END` (R79, R160). -/
def textRead : List Instr → State → List Byte
  | [], _ => []
  | i :: rest, s =>
    match exec i s with
    | .next t => (if i = .fpGet then t.resp.toList.filterMap textByte else []) ++ textRead rest t
    | .fault _ => []
    | .refused _ => []

/-- `FP.GET` repeated until a response has `END = 1`, at most `n` times (R79, R89): the bytes returned before it, and
the state after it; `none` when `n` were too few. -/
def drainWithin : Nat → State → Option (List Byte × State)
  | 0, _ => none
  | n + 1, s =>
    match exec .fpGet s with
    | .next t =>
      match t.resp with
      | some w =>
        if w.getLsbD 8 then some ([], t)
        else (drainWithin n t).map (fun r => (w.extractLsb' 0 8 :: r.1, r.2))
      | none => none
    | .fault _ => none
    | .refused _ => none

/-- `FP.DRAIN` (R89): one `FP.GET` for each byte of the window still unread and one for `END` are enough (R160). -/
def fpDrain (s : State) : Option (List Byte × State) := drainWithin (s.hi - s.rp + 1) s

end Sys2Proof.Machine
end

