-- ==== Sys2Proof/Machine/Reader.lean ====
section
/-! DEFINITION. The reader as the source describes it (R150, R164): whole chunks appended to a growing buffer and the
buffer evaluated again after each, the reference the block's byte-serial parser is held against; and the byte-serial
parser of R168, which keeps a phase and running values where the block scans again. -/

namespace Sys2Proof.Machine

/-- What a reply came to: the variant, the text of a variant that has one, and the two checksums where they were
compared (R31, R164: "the same variant, the same text bytes and the same `v`, `c`"). -/
structure Reply where
  code : ResultCode
  text : List Byte
  received : Word
  computed : Word
  deriving DecidableEq, Repr

/-- The reply a verdict on the buffer `s` stands for. -/
def Verdict.reply (s : List Byte) : Verdict → Reply
  | .pending => ⟨.pending, [], 0, 0⟩
  | .ack => ⟨.ack, [], 0, 0⟩
  | .nak => ⟨.nak, [], 0, 0⟩
  | .crcFormatError => ⟨.crcFormatError, [], 0, 0⟩
  | .crcMismatchError v c => ⟨.crcMismatchError, [], v, c⟩
  | .framedText lo hi v c => ⟨.framedText, (s.drop lo).take (hi - lo), v, c⟩
  | .rawText lo hi => ⟨.rawText, (s.drop lo).take (hi - lo), 0, 0⟩
  | .noData => ⟨.noData, [], 0, 0⟩

/-- The reply the parser's registers hold (R29 to R31). -/
def State.reply (s : State) : Reply := ⟨s.res, s.text, s.rxcrc, s.calcCrc⟩

/-- `read(transport)` (R150), for a transport that yields `chunks` and then ends: each chunk is appended to the buffer
`acc` and the buffer evaluated, until a verdict or the end of the stream. -/
def readChunks (cfg : Config) (acc : List Byte) : List (List Byte) → Reply
  | [] => (classifyEos cfg acc).reply acc
  | c :: rest =>
    match classify cfg (acc ++ c) with
    | .pending => readChunks cfg (acc ++ c) rest
    | v => v.reply (acc ++ c)

/-- The phases of R168. -/
inductive Phase where
  /-- nothing received -/
  | empty
  /-- STX received and no ETX -/
  | frame
  /-- ETX received and `k` bytes of the CRC field -/
  | field (k : Nat)
  /-- a first byte that is no control byte of a reply -/
  | raw
  deriving DecidableEq, Repr

/-- The byte-serial parser of R168. -/
structure Serial where
  phase : Phase
  /-- the running checksum of the bytes at offsets `≥ 1` up to and including the first ETX -/
  sum : Word
  /-- the shift register of the field digits; `none` once a byte was no digit -/
  digits : Option Word
  /-- the offset of the first ETX, once it has been received -/
  etxAt : Nat
  /-- the bytes received: "`ACC` must still be stored, because the text is read out of it" -/
  acc : List Byte
  deriving DecidableEq, Repr

/-- The byte-serial parser before the first byte. -/
def Serial.start : Serial where
  phase := .empty
  sum := crcInit
  digits := some 0
  etxAt := 0
  acc := []

/-- Shift one digit of the CRC field into the register (R85, R168). -/
def shiftDigit (cfg : Config) (digits : Option Word) (b : Byte) : Option Word :=
  match digits, hexval cfg b with
  | some v, some d => some ((v <<< 4) ||| d.zeroExtend 16)
  | _, _ => none

/-- The verdict of the byte-serial parser once the field is complete (R154, R168). -/
def Serial.decide (cfg : Config) (p : Serial) : Verdict :=
  match p.digits with
  | none => .crcFormatError
  | some v =>
    if p.sum = v then
      let (lo, hi) := trim cfg p.acc 1 p.etxAt
      .framedText lo hi v p.sum
    else .crcMismatchError v p.sum

/-- One byte into the byte-serial parser (R168), and its verdict. -/
def Serial.push (cfg : Config) (p : Serial) (b : Byte) : Serial × Verdict :=
  let q := { p with acc := p.acc ++ [b] }
  match p.phase with
  | .empty =>
    if b = ackByte then (q, .ack)
    else if b = nakByte then (q, .nak)
    else if b = stx then ({ q with phase := .frame }, .pending)
    else ({ q with phase := .raw }, .pending)
  | .raw => (q, .pending)
  | .frame =>
    if b = etx then ({ q with phase := .field 0, sum := upd p.sum b, etxAt := p.acc.length }, .pending)
    else ({ q with sum := upd p.sum b }, .pending)
  | .field k =>
    let r := { q with phase := .field (k + 1), digits := shiftDigit cfg p.digits b }
    if k < 3 then (r, .pending) else (r, r.decide cfg)

/-- Bytes into the byte-serial parser, up to its first verdict (R168). -/
def Serial.feed (cfg : Config) (p : Serial) : List Byte → Verdict
  | [] => .pending
  | b :: rest =>
    match p.push cfg b with
    | (q, .pending) => q.feed cfg rest
    | (_, v) => v

end Sys2Proof.Machine
end

