-- ==== Sys2Proof/Safety.lean ====
section
/-! DEFINITION. The terms in which claims speak of a run: the parts of the state that belong to one unit (R245), the
invariants of every reachable state (R25, R28, R30, R31, R38), when a use is over (R244), the host's duties (R229), and the
state a model counts as a fault (R215). -/

namespace Sys2Proof.Machine

/-- The CRC Engine's registers are the same. -/
def SameCrcEngine (s t : State) : Prop := t.crc = s.crc ∧ t.ne = s.ne

/-- The Frame Builder's registers and its output history are the same. -/
def SameBuilder (s t : State) : Prop := t.fbSt = s.fbSt ∧ t.fbCrc = s.fbCrc ∧ t.tx = s.tx

/-- The Frame Parser's registers and its accumulator are the same. -/
def SameParser (s t : State) : Prop :=
  t.acc = s.acc ∧ t.eosf = s.eosf ∧ t.res = s.res ∧ t.lo = s.lo ∧ t.hi = s.hi ∧ t.rp = s.rp ∧
    t.rxcrc = s.rxcrc ∧ t.calcCrc = s.calcCrc

/-- The parameters and what the outside will do are the same. -/
def SameOutside (s t : State) : Prop := t.cfg = s.cfg ∧ t.inbox = s.inbox

/-- The units of R74's second column. -/
inductive BlockUnit where
  | system
  | crcEngine
  | builder
  | parser
  deriving DecidableEq, Repr

/-- The unit column of R74. -/
def unitOf : Instr → BlockUnit
  | .nop => .system
  | .sysRst => .system
  | .sysErr => .system
  | .crcClr => .crcEngine
  | .crcUpd _ => .crcEngine
  | .crcRd => .crcEngine
  | .tblRd _ => .crcEngine
  | .fbStart => .builder
  | .fbByte _ => .builder
  | .fbEnd => .builder
  | .fpRst => .parser
  | .fpPush _ => .parser
  | .fpEos => .parser
  | .fpStat => .parser
  | .fpGet => .parser
  | .fpRxcrc => .parser
  | .fpCalc => .parser

/-- The registers of a unit, `ERR` for the system, are the same. -/
def SameUnit (u : BlockUnit) (s t : State) : Prop :=
  match u with
  | .system => t.err = s.err
  | .crcEngine => SameCrcEngine s t
  | .builder => SameBuilder s t
  | .parser => SameParser s t

/-- A run of the block that reaches this state has met the capacity fault: "a model should count `RES = 8` as a fault"
(R210 (3), R215, U6). The block itself goes on. -/
def State.CapacityFault (s : State) : Prop := s.res = .overflow

/-- No misuse of the command port and no capacity fault since the last reset (R32). -/
def State.ErrorFree (s : State) : Prop := s.err = 0b000

/-! ### When a use is over (R244) -/

/-- A checksum computation is over (R244): among the commands issued is a `CRC.RD`, and nothing after it goes on with the
checksum (R247) or starts another. "Nothing in the state marks it". -/
def ChecksumOver (commands : List Instr) : Prop :=
  ∃ before rest, commands = before ++ .crcRd :: rest ∧ ∀ i ∈ rest, i ≠ .crcClr ∧ ∀ b, i ≠ .crcUpd b

/-- A build is over (R244) once `commands` have led from `s` to `t`: `FB_ST = IDLE` after an `FB.END` that closed an open
frame, and no frame was opened since. A builder that has been idle all along, and one whose frame a reset abandoned
(R248), have no build that is over. -/
def BuildOver (s : State) (commands : List Instr) (t : State) : Prop :=
  t.fbSt = .idle ∧
  ∃ before rest u v, commands = before ++ .fbEnd :: rest ∧ runCommands before s = .next u ∧ u.fbSt = .body ∧
    exec .fbEnd u = .next v ∧ runCommands rest v = .next t ∧ .fbStart ∉ rest

/-- A parse is over (R244): a verdict is latched, and it and its text stay readable until the parser is cleared. -/
def State.ParseOver (s : State) : Prop := s.res ≠ .pending

/-! ### The host's duties (R229) -/

/-- The commands R229 lets the host issue "at any time without affecting the parser". `FP.GET` is not among them: it
moves `RP`. -/
def issuableAnyTime : Instr → Bool
  | .nop => true
  | .sysErr => true
  | .crcClr => true
  | .crcUpd _ => true
  | .crcRd => true
  | .tblRd _ => true
  | .fbStart => true
  | .fbByte _ => true
  | .fbEnd => true
  | .fpStat => true
  | .fpRxcrc => true
  | .fpCalc => true
  | .sysRst => false
  | .fpRst => false
  | .fpPush _ => false
  | .fpEos => false
  | .fpGet => false

/-- The parser's registers are as a reset or `FP.RST` leaves them (R39). -/
def State.ParserCleared (s : State) : Prop := SameParser (State.initial s.cfg) s

/-- The host's duties of R229 for one reply, the stream `w` that then ends, from the state `s`. But for commands that
may be issued at any time, `commands` are, in this order:
(a) `FP.RST`, or `SYS.RST`, or nothing where the parser is as a reset left it;
(b), (d) the bytes of the stream in order, each once, all of them or a part that reached a verdict;
(c) `FP.EOS` if and only if the stream ended on a pending parser (a receive timeout with nothing ever read is the stream
that ends empty);
(e) `FP.GET`, at least once for each byte of the text. -/
def FollowsHostDuties (s : State) (w : List Byte) (commands : List Instr) : Prop :=
  ∃ (clear ends : List Instr) (taken left : List Byte) (reads : Nat),
    (clear = [.fpRst] ∨ clear = [.sysRst] ∨ (clear = [] ∧ s.ParserCleared)) ∧
    w = taken ++ left ∧
    ((left = [] ∧ classify s.cfg taken = .pending ∧ ends = [.fpEos]) ∨
      (classify s.cfg taken ≠ .pending ∧ ends = [])) ∧
    (readChunks s.cfg [] [w]).text.length ≤ reads ∧
    commands.filter (fun i => !issuableAnyTime i) = clear ++ fpFeed taken ++ ends ++ List.replicate reads .fpGet

/-- The host's duties for one reply after another (R151, R229): each reply's text is read before the commands of the next
reply, and so before the next `FP.RST` (duty (e)); after the last only commands that may be issued at any time. -/
def FollowsHostDutiesForAll (s : State) : List (List Byte) → List Instr → Prop
  | [], commands => ∀ i ∈ commands, issuableAnyTime i = true
  | w :: replies, commands =>
    ∃ first rest t, commands = first ++ rest ∧ FollowsHostDuties s w first ∧ runCommands first s = .next t ∧
      FollowsHostDutiesForAll t replies rest

/-! ### Invariants -/

/-- A byte sequence that ends with a complete frame, or with a frame of which ETX and the CRC field are missing
(R38 (j), R248). -/
def EndsWithFrame (tx : List Byte) : Prop :=
  (∃ before body, tx = before ++ build body) ∨ (∃ before body, tx = before ++ stx :: body)

/-- What holds in every reachable state: R38 clause by clause, with what R25, R28, R30 and R31 say besides. Clause (d)
of R38 holds by the type of `RES`. -/
structure State.Inv (s : State) : Prop where
  /-- R38 (a) -/
  emptyChecksum : s.ne = false → s.crc = crcInit
  /-- R38 (b) -/
  accFits : ∀ m, s.cfg.accMax = some m → s.acc.length ≤ m
  /-- R38 (c), R30 -/
  window : s.lo ≤ s.rp ∧ s.rp ≤ s.hi ∧ s.hi ≤ s.acc.length
  /-- R38 (e) -/
  pendingClean : s.res = .pending → s.eosf = false ∧ classify s.cfg s.acc = .pending
  /-- R30: the window is empty at offset 0 while there is no text -/
  noTextNoWindow : s.res.hasText = false → s.lo = 0 ∧ s.hi = 0 ∧ s.rp = 0
  /-- R31: the checksums are written for `FramedText` and `CrcMismatchError` only -/
  checksumsUnwritten : s.res ≠ .framedText → s.res ≠ .crcMismatchError → s.rxcrc = 0 ∧ s.calcCrc = 0
  /-- R31 -/
  framedAgrees : s.res = .framedText → s.rxcrc = s.calcCrc
  /-- R31 -/
  mismatchDiffers : s.res = .crcMismatchError → s.rxcrc ≠ s.calcCrc
  /-- R38 (f) -/
  ackIsByte : s.res = .ack → s.acc = [ackByte]
  /-- R38 (f) -/
  nakIsByte : s.res = .nak → s.acc = [nakByte]
  /-- R38 (g) -/
  frameIsComplete : s.res = .framedText ∨ s.res = .crcFormatError ∨ s.res = .crcMismatchError →
    s.acc.head? = some stx ∧ ∃ e, firstEtx s.acc = some e ∧ s.acc.length = e + 5
  /-- R38 (h) -/
  noDataIsEmpty : s.res = .noData → s.acc = [] ∧ s.eosf = true
  /-- R38 (h) -/
  rawIsNoControl : s.res = .rawText →
    1 ≤ s.acc.length ∧ s.eosf = true ∧ s.acc.head? ≠ some ackByte ∧ s.acc.head? ≠ some nakByte
  /-- R28 -/
  eosDecides : s.eosf = true → s.res = .rawText ∨ s.res = .noData
  /-- R38 (i) -/
  overflowIsFull : s.res = .overflow → s.cfg.accMax = some s.acc.length ∧ s.err &&& errOvf = errOvf
  /-- R38 (j) -/
  idleHistory : s.fbSt = .idle → s.tx = [] ∨ EndsWithFrame s.tx
  /-- R24, R25: the open frame is on `TX` and `FB_CRC` is the checksum of its body so far -/
  openFrame : s.fbSt = .body → ∃ before body, s.tx = before ++ stx :: body ∧ s.fbCrc = crcFold crcInit body

end Sys2Proof.Machine
end

