-- ==== Sys2Proof/Certificates/Slice0/Obligations.lean ====
section
/-! DEFINITION. The statements about the model, from the numbered rules of the spec. A statement marked "the spec's
inference" formalises a sentence that the spec itself marks as derived. -/

open Sys2Proof
open Sys2Proof.Machine

/-! ### System commands (43_system.md) -/

/-- R200: `NOP` is the word `0x0000`, its neighbours with a non-zero low byte are reserved, it returns `0x0000` and the
state is otherwise unchanged. -/
def Obligations.NopReturnsZeroAndChangesNothing : Prop :=
  decode 0x0000 = .ok .nop ∧
  (∀ b : Byte, b ≠ 0 → ∃ r, decode (b.zeroExtend 16) = .error r) ∧
  ∀ s : State, exec .nop s = .next { s with resp := some 0x0000 }

/-- R201: after `SYS.RST` every field is what hardware reset makes it, but for `TX`, which keeps its history; and no
other command clears a bit of `ERR`. -/
def Obligations.SysRstIsResetButForTx : Prop :=
  decode 0x0100 = .ok .sysRst ∧
  (∀ s : State, exec .sysRst s =
    .next { State.initial s.cfg with tx := s.tx, inbox := s.inbox, resp := some 0x0000 }) ∧
  ∀ (i : Instr) (s t : State), i ≠ .sysRst → exec i s = .next t → s.err ||| t.err = t.err

/-- R202, R87: `SYS.ERR` returns the three sticky bits, bits 15:3 zero, and clears nothing. -/
def Obligations.SysErrReadsTheStickyBits : Prop :=
  decode 0x0200 = .ok .sysErr ∧
  ∀ s : State, ∃ w : Word, exec .sysErr s = .next { s with resp := some w } ∧
    w.getLsbD 0 = s.err.getLsbD 0 ∧ w.getLsbD 1 = s.err.getLsbD 1 ∧ w.getLsbD 2 = s.err.getLsbD 2 ∧ w.toNat ≤ 7

/-! ### CRC Engine (40_crc_engine.md) -/

/-- R106: `CRC.CLR` starts a new checksum and touches no other register. -/
def Obligations.CrcClrStartsANewChecksum : Prop :=
  decode 0x1000 = .ok .crcClr ∧
  ∀ s : State, exec .crcClr s = .next { s with crc := 0xFFFF, ne := false, resp := some 0x0000 }

/-- R107: `CRC.UPD b` replaces `CRC` by `upd(CRC, b)`, sets `NE`, returns `0x0000`. -/
def Obligations.CrcUpdAbsorbsOneByte : Prop :=
  ∀ b : Byte, decode (0x1100 ||| b.zeroExtend 16) = .ok (.crcUpd b) ∧
    ∀ s : State, exec (.crcUpd b) s = .next { s with crc := upd s.crc b, ne := true, resp := some 0x0000 }

/-- R108: `CRC.RD` returns `CRC`, or `0x0000` when no byte was absorbed, and writes no state. -/
def Obligations.CrcRdReturnsTheChecksum : Prop :=
  decode 0x1200 = .ok .crcRd ∧
  ∀ s : State,
    (s.ne = true → exec .crcRd s = .next { s with resp := some s.crc }) ∧
    (s.ne = false → exec .crcRd s = .next { s with resp := some 0x0000 })

/-- R109: `TBL.RD i` returns `T[i]` for every 8-bit index and writes no state. -/
def Obligations.TblRdReturnsTheEntry : Prop :=
  ∀ k : Byte, decode (0x1300 ||| k.zeroExtend 16) = .ok (.tblRd k) ∧
    ∀ s : State, exec (.tblRd k) s = .next { s with resp := some (tableEntry k) }

/-- The spot checks of R101 (the spec's inference from R100): `T[i] = 0` only for `i = 0`, no entry is `0xFFFF`, the
entries are pairwise distinct. -/
def Obligations.TableEntriesAreDistinct : Prop :=
  (∀ i : Byte, tableEntry i = 0 ↔ i = 0) ∧ (∀ i : Byte, tableEntry i ≠ 0xFFFF) ∧
  ∀ i j : Byte, tableEntry i = tableEntry j → i = j

/-- R102 in numbers: `u16(c << 8) ^ T[((c >> 8) ^ b) & 0xFF]`, and the rule's example. -/
def Obligations.UpdIsTheTableStep : Prop :=
  (∀ (c : Word) (b : Byte),
    (upd c b).toNat =
      (c.toNat * 256 % 65536) ^^^ (tableEntry (BitVec.ofNat 8 ((c.toNat / 256) ^^^ b.toNat))).toNat) ∧
  upd 0xFFFF 0x53 = 0x8B66

/-- R103: the empty sequence gives `0x0000`, a longer one the fold of `upd` from `0xFFFF`: one more byte at the end is
one more `upd`. -/
def Obligations.CrcOfSequence : Prop :=
  crc16 [] = 0x0000 ∧ (∀ b : Byte, crc16 [b] = upd 0xFFFF b) ∧
  ∀ (s : List Byte) (b : Byte), s ≠ [] → crc16 (s ++ [b]) = upd (crc16 s) b

/-- R105 (the spec's inference): `upd` equals its bit-serial form for every checksum and byte. -/
def Obligations.UpdEqualsBitSerialForm : Prop :=
  ∀ (c : Word) (b : Byte), upd c b = updBitSerial c b

/-- R111 (the spec marks it general knowledge): two sequences of one length that differ in one bit of one byte have
different checksums. -/
def Obligations.SingleBitChangeChangesCrc : Prop :=
  ∀ (p q : List Byte) (b : Byte) (k : Nat), k < 8 →
    crc16 (p ++ [b] ++ q) ≠ crc16 (p ++ [b ^^^ BitVec.twoPow 8 k] ++ q)

/-- R110 (the spec's inference): `CRC.COMPUTE s` returns `crc16(s)` for every sequence and from any state, and it
disturbs neither the builder nor the parser; the computation is then over in the sense of R244. -/
def Obligations.CrcComputeReturnsCrcOfSequence : Prop :=
  ∀ (bytes : List Byte) (s : State),
    ∃ t, runCommands (crcCompute bytes) s = .next t ∧ t.resp = some (crc16 bytes) ∧
      SameBuilder s t ∧ SameParser s t ∧ t.err = s.err ∧ SameOutside s t ∧ ChecksumOver (crcCompute bytes)

/-! ### Frame Builder (41_frame_builder.md) -/

/-- R131: `FB.START` emits STX and opens the frame; with a frame open it is `error(SEQ)`. -/
def Obligations.FbStartOpensAFrame : Prop :=
  decode 0x2000 = .ok .fbStart ∧
  ∀ s : State,
    (s.fbSt = .idle → exec .fbStart s =
      .next { s with tx := s.tx ++ [0x02], fbCrc := 0xFFFF, fbSt := .body, resp := some 0x0000 }) ∧
    (s.fbSt = .body → exec .fbStart s = .next { s with err := s.err ||| 0b010, resp := some 0xFFFF })

/-- R132: `FB.BYTE b` emits every value of `b` as it is and folds it in; with no frame open it is `error(SEQ)`. -/
def Obligations.FbByteEmitsOneBodyByte : Prop :=
  ∀ b : Byte, decode (0x2100 ||| b.zeroExtend 16) = .ok (.fbByte b) ∧
    ∀ s : State,
      (s.fbSt = .body → exec (.fbByte b) s =
        .next { s with tx := s.tx ++ [b], fbCrc := upd s.fbCrc b, resp := some 0x0000 }) ∧
      (s.fbSt = .idle → exec (.fbByte b) s = .next { s with err := s.err ||| 0b010, resp := some 0xFFFF })

/-- R133: `FB.END` emits ETX and four digits, returns the checksum, closes the frame; with no frame open it is
`error(SEQ)`. -/
def Obligations.FbEndClosesTheFrame : Prop :=
  decode 0x2200 = .ok .fbEnd ∧
  ∀ s : State,
    (s.fbSt = .body → exec .fbEnd s =
      .next { s with
        tx := s.tx ++ [0x03] ++ hex4 (upd s.fbCrc 0x03), fbCrc := upd s.fbCrc 0x03, fbSt := .idle,
        resp := some (upd s.fbCrc 0x03) }) ∧
    (s.fbSt = .idle → exec .fbEnd s = .next { s with err := s.err ||| 0b010, resp := some 0xFFFF })

/-- R135 (the spec's inference): from an idle builder `FB.BUILD s` appends exactly
`STX, s, ETX, hex4(crc16(s ++ [ETX]))` to `TX`, returns the checksum from its final `FB.END`, leaves the builder idle,
sets no error bit and depends on nothing else; the build is then over in the sense of R244. A sequence without `FB.END`
ends no build: neither a builder left idle nor `SYS.RST` on an open frame does (R248). -/
def Obligations.FbBuildAppendsTheFrame : Prop :=
  (∀ (s t : State) (commands : List Instr), .fbEnd ∉ commands → ¬ BuildOver s commands t) ∧
  ∀ (body : List Byte) (s : State), s.fbSt = .idle →
    ∃ t, runCommands (fbBuild body) s = .next t ∧ BuildOver s (fbBuild body) t ∧
      t.tx = s.tx ++ [0x02] ++ body ++ [0x03] ++ hex4 (crc16 (body ++ [0x03])) ∧
      t.resp = some (crc16 (body ++ [0x03])) ∧ t.fbSt = .idle ∧ t.err = s.err ∧
      SameCrcEngine s t ∧ SameParser s t ∧ SameOutside s t

/-! ### The hex CRC field (30_encoding.md) -/

/-- R85: which bytes are digits and what each is worth; four digits are read most significant first, and one byte that
is no digit refuses the field. -/
def Obligations.HexFieldIsPositional : Prop :=
  ∀ cfg : Config,
    (∀ b : Byte, (hexval cfg b).map BitVec.toNat =
      if 0x30 ≤ b.toNat ∧ b.toNat ≤ 0x39 then some (b.toNat - 0x30)
      else if 0x41 ≤ b.toNat ∧ b.toNat ≤ 0x46 then some (b.toNat - 0x41 + 10)
      else if 0x61 ≤ b.toNat ∧ b.toNat ≤ 0x66 ∧ cfg.hexLowerOk = true then some (b.toNat - 0x61 + 10)
      else none) ∧
    ∀ f0 f1 f2 f3 : Byte,
      (parsehex4 cfg [f0, f1, f2, f3] = none ↔
        hexval cfg f0 = none ∨ hexval cfg f1 = none ∨ hexval cfg f2 = none ∨ hexval cfg f3 = none) ∧
      ∀ d0 d1 d2 d3 : BitVec 4,
        hexval cfg f0 = some d0 → hexval cfg f1 = some d1 → hexval cfg f2 = some d2 → hexval cfg f3 = some d3 →
          parsehex4 cfg [f0, f1, f2, f3] =
            some (BitVec.ofNat 16 (d0.toNat * 4096 + d1.toNat * 256 + d2.toNat * 16 + d3.toNat))

/-- The last sentence of R85 (the spec's inference): a rendered value parses back, under either value of
`HEX_LOWER_OK`, and what is rendered is four upper-case digits. -/
def Obligations.RenderedFieldParsesBack : Prop :=
  ∀ (cfg : Config) (v : Word), parsehex4 cfg (hex4 v) = some v ∧
    ∀ b ∈ hex4 v, (0x30 ≤ b.toNat ∧ b.toNat ≤ 0x39) ∨ (0x41 ≤ b.toNat ∧ b.toNat ≤ 0x46)

/-! ### Frame Parser: the functions (42_frame_parser.md, section 2) -/

/-- R152: `first_etx(s)` is the least offset `≥ 1` that holds `0x03`, and `none` exactly when no offset does. -/
def Obligations.FirstEtxIsTheLeastOffset : Prop :=
  (∀ (s : List Byte) (k : Nat),
    firstEtx s = some k ↔ 1 ≤ k ∧ s[k]? = some 0x03 ∧ ∀ j, 1 ≤ j → j < k → s[j]? ≠ some 0x03) ∧
  ∀ s : List Byte, firstEtx s = none ↔ ∀ j, 1 ≤ j → s[j]? ≠ some 0x03

/-- R153: `trim(s, lo, hi)` delimits a part of `s[lo..hi-1]`; what it drops at either end is in `WS`; what is left, if
anything, neither begins nor ends with a byte of `WS`; and if every byte is in `WS` it is `(hi, hi)`. -/
def Obligations.TrimDropsExactlyTheSurroundingWhitespace : Prop :=
  ∀ (cfg : Config) (s : List Byte) (lo hi : Nat), lo ≤ hi → hi ≤ s.length →
    ∃ lo' hi' : Nat, trim cfg s lo hi = (lo', hi') ∧ lo ≤ lo' ∧ lo' ≤ hi' ∧ hi' ≤ hi ∧
      (∀ j b, lo ≤ j → j < lo' → s[j]? = some b → b ∈ cfg.ws) ∧
      (∀ j b, hi' ≤ j → j < hi → s[j]? = some b → b ∈ cfg.ws) ∧
      (∀ b, lo' < hi' → s[lo']? = some b → b ∉ cfg.ws) ∧
      (∀ b, lo' < hi' → s[hi' - 1]? = some b → b ∉ cfg.ws) ∧
      (lo' = hi' → lo' = hi)

/-- R154: what each verdict of `classify(s)` says of `s`. -/
def Obligations.ClassifyDecidesEveryAccumulator : Prop :=
  ∀ (cfg : Config) (s : List Byte),
    (classify cfg s = .ack ↔ s[0]? = some 0x06) ∧
    (classify cfg s = .nak ↔ s[0]? = some 0x15) ∧
    (classify cfg s = .crcFormatError ↔
      s[0]? = some 0x02 ∧ ∃ e, firstEtx s = some e ∧ e + 5 ≤ s.length ∧
        parsehex4 cfg ((s.drop (e + 1)).take 4) = none) ∧
    (∀ v c, classify cfg s = .crcMismatchError v c ↔
      s[0]? = some 0x02 ∧ ∃ e, firstEtx s = some e ∧ e + 5 ≤ s.length ∧
        parsehex4 cfg ((s.drop (e + 1)).take 4) = some v ∧ c = crc16 ((s.drop 1).take e) ∧ c ≠ v) ∧
    (∀ lo hi v c, classify cfg s = .framedText lo hi v c ↔
      s[0]? = some 0x02 ∧ ∃ e, firstEtx s = some e ∧ e + 5 ≤ s.length ∧
        parsehex4 cfg ((s.drop (e + 1)).take 4) = some v ∧ c = crc16 ((s.drop 1).take e) ∧ c = v ∧
        trim cfg s 1 e = (lo, hi)) ∧
    (classify cfg s = .pending ↔
      s[0]? ≠ some 0x06 ∧ s[0]? ≠ some 0x15 ∧
        (s[0]? = some 0x02 → ∀ e, firstEtx s = some e → s.length < e + 5))

/-- R155: at the end of the stream nothing received is `NoData`, anything else `RawText` over the whole accumulator, a
leading STX included. -/
def Obligations.ClassifyAtEndOfStream : Prop :=
  ∀ (cfg : Config) (s : List Byte),
    (s = [] → classifyEos cfg s = .noData) ∧
    (s ≠ [] → ∀ lo hi, trim cfg s 0 s.length = (lo, hi) → classifyEos cfg s = .rawText lo hi)

/-- The last sentence of R152 and the lemma inside R164 (the spec's inferences): neither the first ETX nor a verdict,
with its text bounds and checksums, is changed by any bytes that follow. -/
def Obligations.VerdictIsStableUnderMoreBytes : Prop :=
  (∀ (p q : List Byte) (e : Nat), firstEtx p = some e → firstEtx (p ++ q) = some e) ∧
  ∀ (cfg : Config) (p q : List Byte), classify cfg p ≠ .pending → classify cfg (p ++ q) = classify cfg p

/-- R168 (the spec's inference): the byte-serial parser, which keeps a phase, a running checksum and a shift register,
reaches the verdict of `classify` on every sequence. -/
def Obligations.SerialParserReachesTheSameVerdict : Prop :=
  ∀ (cfg : Config) (s : List Byte), Serial.start.feed cfg s = classify cfg s

/-! ### Frame Parser: the commands (42_frame_parser.md, section 3) -/

/-- R86 with R29's code column: the nine codes of `RES`, none of them 9 to 15; and R78: the status word's fields. -/
def Obligations.StatusWordLayout : Prop :=
  (ResultCode.pending.code = 0 ∧ ResultCode.ack.code = 1 ∧ ResultCode.nak.code = 2 ∧ ResultCode.framedText.code = 3 ∧
    ResultCode.rawText.code = 4 ∧ ResultCode.crcFormatError.code = 5 ∧ ResultCode.crcMismatchError.code = 6 ∧
    ResultCode.noData.code = 7 ∧ ResultCode.overflow.code = 8) ∧
  (∀ s : State, s.res.code.toNat ≤ 8) ∧
  ∀ (s : State) (drop : Bool),
    (s.statw drop).extractLsb' 0 4 = s.res.code ∧ (s.statw drop).getLsbD 4 = s.eosf ∧
    (s.statw drop).extractLsb' 5 3 = 0 ∧ (s.statw drop).getLsbD 8 = drop ∧ (s.statw drop).extractLsb' 9 7 = 0

/-- R156: `FP.RST` clears the parser's registers and no other. -/
def Obligations.FpRstClearsTheParser : Prop :=
  decode 0x3000 = .ok .fpRst ∧
  ∀ s : State, exec .fpRst s =
    .next { s with
      acc := [], eosf := false, res := .pending, lo := 0, hi := 0, rp := 0, rxcrc := 0x0000, calcCrc := 0x0000,
      resp := some 0x0000 }

/-- R157: `FP.PUSH b` after a verdict is dropped; on a full accumulator it latches `Overflow`; else the byte is
appended and the verdict of `classify` is latched with the registers that go with it. The response is the status word
of the state after the assignments. -/
def Obligations.FpPushDeliversOneByte : Prop :=
  ∀ b : Byte, decode (0x3100 ||| b.zeroExtend 16) = .ok (.fpPush b) ∧
    ∀ s : State,
      (s.res ≠ .pending → exec (.fpPush b) s = .next (s.respond (s.statw true))) ∧
      (s.res = .pending → s.cfg.accMax = some s.acc.length →
        ∃ t, t = { s with res := .overflow, err := s.err ||| 0b100 } ∧
          exec (.fpPush b) s = .next (t.respond (t.statw true))) ∧
      (s.res = .pending → s.cfg.accMax ≠ some s.acc.length →
        ∃ t, exec (.fpPush b) s = .next (t.respond (t.statw false)) ∧
          (classify s.cfg (s.acc ++ [b]) = .pending → t = { s with acc := s.acc ++ [b] }) ∧
          (classify s.cfg (s.acc ++ [b]) = .ack → t = { s with acc := s.acc ++ [b], res := .ack }) ∧
          (classify s.cfg (s.acc ++ [b]) = .nak → t = { s with acc := s.acc ++ [b], res := .nak }) ∧
          (classify s.cfg (s.acc ++ [b]) = .crcFormatError →
            t = { s with acc := s.acc ++ [b], res := .crcFormatError }) ∧
          (∀ v c, classify s.cfg (s.acc ++ [b]) = .crcMismatchError v c →
            t = { s with acc := s.acc ++ [b], res := .crcMismatchError, rxcrc := v, calcCrc := c }) ∧
          (∀ lo hi v c, classify s.cfg (s.acc ++ [b]) = .framedText lo hi v c →
            t = { s with
              acc := s.acc ++ [b], res := .framedText, rxcrc := v, calcCrc := c, lo := lo, hi := hi, rp := lo }))

/-- R158: `FP.EOS` after a verdict has no effect; else `EOSF` is set and `NoData` or `RawText` is latched. -/
def Obligations.FpEosEndsTheStream : Prop :=
  decode 0x3200 = .ok .fpEos ∧
  ∀ s : State,
    (s.res ≠ .pending → exec .fpEos s = .next (s.respond (s.statw true))) ∧
    (s.res = .pending → s.acc = [] →
      ∃ t, t = { s with eosf := true, res := .noData } ∧ exec .fpEos s = .next (t.respond (t.statw false))) ∧
    (s.res = .pending → s.acc ≠ [] → ∀ lo hi, trim s.cfg s.acc 0 s.acc.length = (lo, hi) →
      ∃ t, t = { s with eosf := true, res := .rawText, lo := lo, hi := hi, rp := lo } ∧
        exec .fpEos s = .next (t.respond (t.statw false)))

/-- R159: `FP.STAT` returns the status word with `DROP = 0` and writes no state. -/
def Obligations.FpStatReturnsTheStatus : Prop :=
  decode 0x3300 = .ok .fpStat ∧
  ∀ s : State, exec .fpStat s = .next { s with resp := some (s.statw false) }

/-- R160, R79: `FP.GET` returns the byte at `RP` and advances while `RP < HI`, else `0x0100`, and writes no other
state. (That it completes in the states R38 (c) rules out too, where the accumulator has no byte at `RP`, is
`EveryStepCompletes`.) -/
def Obligations.FpGetReturnsTheNextTextByte : Prop :=
  decode 0x3400 = .ok .fpGet ∧
  ∀ s : State,
    (∀ b, s.rp < s.hi → s.acc[s.rp]? = some b →
      exec .fpGet s = .next { s with rp := s.rp + 1, resp := some (b.zeroExtend 16) }) ∧
    (¬ s.rp < s.hi → exec .fpGet s = .next { s with resp := some 0x0100 })

/-- R161, R162: `FP.RXCRC` returns the received checksum, `FP.CALC` the computed one; they write no state. -/
def Obligations.FpRxcrcAndFpCalcReturnTheChecksums : Prop :=
  decode 0x3500 = .ok .fpRxcrc ∧ decode 0x3600 = .ok .fpCalc ∧
  ∀ s : State,
    exec .fpRxcrc s = .next { s with resp := some s.rxcrc } ∧ exec .fpCalc s = .next { s with resp := some s.calcCrc }

/-- R89, R160 (the spec's inference): from a state whose window lies in the accumulator (R38 (c)), `FP.DRAIN` returns
the rest of the text, `ACC[RP..HI-1]`, leaves `RP = HI` and the `END` word, and changes nothing else. -/
def Obligations.DrainReturnsTheRestOfTheText : Prop :=
  ∀ s : State, s.rp ≤ s.hi → s.hi ≤ s.acc.length →
    fpDrain s = some ((s.acc.drop s.rp).take (s.hi - s.rp), { s with rp := s.hi, resp := some 0x0100 })

/-! ### Frame Parser: the progression and the properties (42_frame_parser.md, sections 4 and 5) -/

/-- R163 (the spec's inference), the rows of the pending states: how each phase of the accumulator goes on under a push
that finds room, and at the end of the stream. -/
def Obligations.ParserTransitions : Prop :=
  (∀ s t : State, s.res = .pending → exec .fpEos s = .next t →
    (s.acc = [] → t.res = .noData ∧ t.acc = []) ∧ (s.acc ≠ [] → t.res = .rawText ∧ t.acc = s.acc)) ∧
  ∀ (s t : State) (b : Byte), s.res = .pending → s.cfg.accMax ≠ some s.acc.length → exec (.fpPush b) s = .next t →
    (s.acc = [] → b = 0x06 → t.res = .ack) ∧
    (s.acc = [] → b = 0x15 → t.res = .nak) ∧
    (s.acc = [] → b ≠ 0x06 → b ≠ 0x15 → t.res = .pending ∧ t.acc = [b]) ∧
    (s.acc[0]? = some 0x02 → firstEtx s.acc = none → b ≠ 0x03 → t.res = .pending ∧ firstEtx t.acc = none) ∧
    (s.acc[0]? = some 0x02 → firstEtx s.acc = none → b = 0x03 →
      t.res = .pending ∧ firstEtx t.acc = some s.acc.length) ∧
    (∀ e k, s.acc[0]? = some 0x02 → firstEtx s.acc = some e → s.acc.length = e + 1 + k → k < 3 →
      t.res = .pending ∧ firstEtx t.acc = some e ∧ t.acc.length = e + 1 + (k + 1)) ∧
    (∀ e, s.acc[0]? = some 0x02 → firstEtx s.acc = some e → s.acc.length = e + 1 + 3 →
      t.res = .framedText ∨ t.res = .crcMismatchError ∨ t.res = .crcFormatError) ∧
    (∀ a, s.acc[0]? = some a → a ≠ 0x02 → a ≠ 0x06 → a ≠ 0x15 → t.res = .pending ∧ t.acc[0]? = some a)

/-- R163, R246 (the spec's inference): a latched verdict is never replaced, and the accumulator, the window and the
checksums with it are frozen, until `FP.RST` or `SYS.RST`; only the read pointer moves, and only by `FP.GET`. -/
def Obligations.VerdictIsNeverReplaced : Prop :=
  ∀ (i : Instr) (s t : State), s.res ≠ .pending → i ≠ .fpRst → i ≠ .sysRst → exec i s = .next t →
    t.res = s.res ∧ t.acc = s.acc ∧ t.eosf = s.eosf ∧ t.lo = s.lo ∧ t.hi = s.hi ∧ t.rxcrc = s.rxcrc ∧
      t.calcCrc = s.calcCrc ∧ (i ≠ .fpGet → t.rp = s.rp)

/-- R165 (the spec's inference): a stream that begins with `0x06` is `Ack` and one that begins with `0x15` is `Nak`,
whatever follows: the bytes that follow are dropped, with `DROP = 1`, and do not reach the accumulator. -/
def Obligations.ControlByteDecidesAlone : Prop :=
  ∀ (s : State) (rest : List Byte), s.cfg.accMax ≠ some 0 →
    (∃ t, runCommands ([.fpRst] ++ fpFeed (0x06 :: rest)) s = .next t ∧ t.res = .ack ∧ t.acc = [0x06] ∧
      responses ([.fpRst] ++ fpFeed (0x06 :: rest)) s = 0x0000 :: 0x0001 :: List.replicate rest.length 0x0101) ∧
    (∃ t, runCommands ([.fpRst] ++ fpFeed (0x15 :: rest)) s = .next t ∧ t.res = .nak ∧ t.acc = [0x15] ∧
      responses ([.fpRst] ++ fpFeed (0x15 :: rest)) s = 0x0000 :: 0x0002 :: List.replicate rest.length 0x0102)

/-- R164 (the spec's inference): for every byte stream, and every way of cutting it into chunks, the block fed the
bytes one by one and then told of the end reaches the variant, the text bytes and the checksums that the source's
chunk-wise reader reaches, and the parse is over in the sense of R244. The stream fits the accumulator. -/
def Obligations.FragmentationLosesNothing : Prop :=
  ∀ (s : State) (chunks : List (List Byte)), (∀ m, s.cfg.accMax = some m → chunks.flatten.length ≤ m) →
    ∃ t, runCommands (fpReply chunks.flatten) s = .next t ∧ t.reply = readChunks s.cfg [] chunks ∧ t.ParseOver

/-- R229 with R164 and R245 (the spec's inferences): a host that keeps its duties, whatever other commands it issues in
between, gets the reply the source's reader gives for the stream, however that was cut into chunks, and what its
`FP.GET`s return is the text; and so for one reply after another. The streams fit the accumulator. -/
def Obligations.HostDutiesGiveTheReadersReply : Prop :=
  (∀ (s : State) (chunks : List (List Byte)) (commands : List Instr),
    FollowsHostDuties s chunks.flatten commands →
    (∀ m, s.cfg.accMax = some m → chunks.flatten.length ≤ m) →
    ∃ t, runCommands commands s = .next t ∧ t.reply = readChunks s.cfg [] chunks ∧
      textRead commands s = (readChunks s.cfg [] chunks).text) ∧
  ∀ (s : State) (replies : List (List (List Byte))) (commands : List Instr),
    FollowsHostDutiesForAll s (replies.map List.flatten) commands →
    (∀ chunks ∈ replies, ∀ m, s.cfg.accMax = some m → chunks.flatten.length ≤ m) →
    (∃ t, runCommands commands s = .next t) ∧
      textRead commands s = (replies.map (fun chunks => (readChunks s.cfg [] chunks).text)).flatten

/-- R166 (the spec's inference): a body without `0x03`, built and fed to a cleared parser, is pending until the last
byte and then `FramedText`, with both checksums `crc16(body ++ [0x03])` and the text the body less `WS` at both ends. -/
def Obligations.BuiltFrameIsReadBack : Prop :=
  ∀ (s : State) (body : List Byte), (0x03 : Byte) ∉ body →
    (∀ m, s.cfg.accMax = some m → body.length + 6 ≤ m) →
    ∃ t, runCommands ([.fpRst] ++ fpFeed (build body)) s = .next t ∧ t.res = .framedText ∧
      t.rxcrc = crc16 (body ++ [0x03]) ∧ t.calcCrc = crc16 (body ++ [0x03]) ∧
      t.text = (body.dropWhile (fun b => s.cfg.ws.contains b)).rdropWhile (fun b => s.cfg.ws.contains b) ∧
      responses ([.fpRst] ++ fpFeed (build body)) s = List.replicate (body.length + 6) 0x0000 ++ [0x0003]

/-- R167 (the spec's inference): one flipped bit of the payload of a built frame gives `CrcMismatchError` when the
flipped byte does not become `0x03`. -/
def Obligations.PayloadBitFlipIsDetected : Prop :=
  ∀ (s : State) (p q : List Byte) (b : Byte) (k : Nat), k < 8 →
    (0x03 : Byte) ∉ p ++ [b] ++ q → b ^^^ BitVec.twoPow 8 k ≠ 0x03 →
    (∀ m, s.cfg.accMax = some m → p.length + q.length + 7 ≤ m) →
    ∃ t, runCommands
        ([.fpRst] ++ fpFeed ([0x02] ++ p ++ [b ^^^ BitVec.twoPow 8 k] ++ q ++ [0x03] ++
          hex4 (crc16 (p ++ [b] ++ q ++ [0x03])))) s = .next t ∧
      t.res = .crcMismatchError ∧ t.rxcrc = crc16 (p ++ [b] ++ q ++ [0x03])

/-- R169 (the spec's inference): a frame whose CRC field is four other bytes gives `CrcMismatchError` where they parse
to another value, `CrcFormatError` where they do not parse. (A digit replaced by itself in the other case keeps the
value: R154 compares numbers, so it is no corruption.) -/
def Obligations.CorruptedFieldIsDetected : Prop :=
  ∀ (s : State) (body field : List Byte), (0x03 : Byte) ∉ body → field.length = 4 →
    (∀ m, s.cfg.accMax = some m → body.length + 6 ≤ m) →
    ∃ t, runCommands ([.fpRst] ++ fpFeed ([0x02] ++ body ++ [0x03] ++ field)) s = .next t ∧
      (parsehex4 s.cfg field = none → t.res = .crcFormatError ∧ t.rxcrc = 0x0000 ∧ t.calcCrc = 0x0000) ∧
      (∀ v, parsehex4 s.cfg field = some v → v ≠ crc16 (body ++ [0x03]) →
        t.res = .crcMismatchError ∧ t.rxcrc = v ∧ t.calcCrc = crc16 (body ++ [0x03]))

/-! ### Errors (60_exceptions.md) and the state's rules (10_state.md) -/

/-- R32: a bit of `ERR` is set when its cause arises and stays set; of the commands only `SYS.RST` clears it, and
outside them a hardware reset; `SYS.ERR` reads it. -/
def Obligations.ErrBitsAreSticky : Prop :=
  (∀ s : State, exec .sysErr s = .next { s with resp := some (s.err.zeroExtend 16) }) ∧
  (∀ (i : Instr) (s t : State), i ≠ .sysRst → exec i s = .next t →
    t.err = s.err |||
      (if (i = .fbStart ∧ s.fbSt = .body) ∨ (unitOf i = .builder ∧ i ≠ .fbStart ∧ s.fbSt = .idle) then 0b010 else 0) |||
      (if (∃ b, i = .fpPush b) ∧ s.res = .pending ∧ s.cfg.accMax = some s.acc.length then 0b100 else 0)) ∧
  (∀ (s t : State) (w : Word) (rest : List HostInput) (r : Reserved),
    s.inbox = .command w :: rest → decode w = .error r → step s = .next t → t.err = s.err ||| 0b001) ∧
  (∀ s t : State, exec .sysRst s = .next t → t.err = 0) ∧
  ∀ (s t : State) (rest : List HostInput), s.inbox = .hardwareReset :: rest → step s = .next t → t.err = 0

/-- R245 (the spec's inference): a command of one unit writes that unit's registers, `ERR` and its response, and
nothing of the other two units; it never touches the parameters or what the outside will do. -/
def Obligations.CommandsWriteOnlyTheirUnit : Prop :=
  ∀ (i : Instr) (s t : State), exec i s = .next t →
    SameOutside s t ∧
    (i ≠ .sysRst → ∀ u : BlockUnit, u ≠ .system → u ≠ unitOf i → SameUnit u s t)

/-- R245 (the spec's inference): what a unit's command does to its unit, and what it returns, depends on that unit's
registers and the parameters alone. -/
def Obligations.ResultsDependOnTheirUnitAlone : Prop :=
  ∀ (i : Instr) (s s' t t' : State), unitOf i ≠ .system → s'.cfg = s.cfg → SameUnit (unitOf i) s s' →
    exec i s = .next t → exec i s' = .next t' → SameUnit (unitOf i) t t' ∧ t'.resp = t.resp

/-- R245 (the spec's inference): two commands of different units may be issued in either order: each returns what it
returned, and the state, the response port apart, is the same. -/
def Obligations.UnitsInterleaveInAnyOrder : Prop :=
  ∀ (i j : Instr) (s a ab : State), unitOf i ≠ .system → unitOf j ≠ .system → unitOf i ≠ unitOf j →
    exec i s = .next a → exec j a = .next ab →
    ∃ b ba, exec j s = .next b ∧ exec i b = .next ba ∧ b.resp = ab.resp ∧ ba.resp = a.resp ∧
      { ba with resp := none } = { ab with resp := none }

/-- R54: the reads but `FP.GET`, and `NOP`, change no state and may be repeated: the second answer is the first. -/
def Obligations.ReadsMayBeRepeated : Prop :=
  ∀ (i : Instr) (s : State),
    i = .nop ∨ i = .sysErr ∨ i = .crcRd ∨ (∃ k, i = .tblRd k) ∨ i = .fpStat ∨ i = .fpRxcrc ∨ i = .fpCalc →
    ∃ w, exec i s = .next { s with resp := some w } ∧
      exec i { s with resp := some w } = .next { s with resp := some w }

/-- 93_implementation_defined.md, section 1: "every command completes in every state"; a step with nothing at the
command port, and a hardware reset, complete as well. -/
def Obligations.EveryStepCompletes : Prop :=
  (∀ (i : Instr) (s : State), ∃ t, exec i s = .next t) ∧ ∀ s : State, ∃ t, step s = .next t

/-- R39: every field after hardware reset, whatever the parameters; what `SYS.RST` and `FP.RST` make of every state. Of
the two ports, which are the model's fields (log entries 3 and 4), it says only that what was presented later waits. -/
def Obligations.ResetLeavesTheTabledValues : Prop :=
  (∀ (s : State) (rest : List HostInput), s.inbox = .hardwareReset :: rest →
    ∃ r, step s = .next {
      cfg := s.cfg, crc := 0xFFFF, ne := false, fbSt := .idle, fbCrc := 0xFFFF, tx := [], acc := [], eosf := false,
      res := .pending, lo := 0, hi := 0, rp := 0, rxcrc := 0x0000, calcCrc := 0x0000, err := 0b000,
      inbox := rest, resp := r }) ∧
  (∀ s : State, exec .sysRst s = .next {
      cfg := s.cfg, crc := 0xFFFF, ne := false, fbSt := .idle, fbCrc := 0xFFFF, tx := s.tx, acc := [], eosf := false,
      res := .pending, lo := 0, hi := 0, rp := 0, rxcrc := 0x0000, calcCrc := 0x0000, err := 0b000,
      inbox := s.inbox, resp := some 0x0000 }) ∧
  (∀ s : State, exec .fpRst s = .next {
      cfg := s.cfg, crc := s.crc, ne := s.ne, fbSt := s.fbSt, fbCrc := s.fbCrc, tx := s.tx, acc := [], eosf := false,
      res := .pending, lo := 0, hi := 0, rp := 0, rxcrc := 0x0000, calcCrc := 0x0000, err := s.err,
      inbox := s.inbox, resp := some 0x0000 }) ∧
  ∃ cfg inputs r, State.reset = {
      cfg := cfg, crc := 0xFFFF, ne := false, fbSt := .idle, fbCrc := 0xFFFF, tx := [], acc := [], eosf := false,
      res := .pending, lo := 0, hi := 0, rp := 0, rxcrc := 0x0000, calcCrc := 0x0000, err := 0b000,
      inbox := inputs, resp := r }

/-! ### Steps, words, several blocks -/

/-- R57, R73: when the word at the command port decodes to a command, the step takes the word from the port and is that
command's meaning, nothing more. That the port is the list `inbox`, and the second clause, that a word `withFetchWord`
presents is put before everything waiting and run by the very next step, are the model's DESIGN CHOICE (log entry 3). -/
def Obligations.StepRunsTheDecodedCommand : Prop :=
  (∀ (s : State) (w : Word) (rest : List HostInput) (i : Instr),
    s.inbox = .command w :: rest → decode w = .ok i → step s = exec i { s with inbox := rest }) ∧
  ∀ (s : State) (w : Word) (i : Instr), decode w = .ok i → step (s.withFetchWord 16 w.toNat) = exec i s

/-- With nothing at the command port nothing happens: the registers stay, and the response port shows no word. The
form of the ports is the model's choice (log entries 3 and 4); R12 has "no spontaneous state change". -/
def Obligations.NothingHappensUnasked : Prop :=
  ∀ s : State, s.inbox = [] → step s = .next { s with resp := none }

/-- R213: a word is reserved exactly when its opcode is not in the map or a format-`N` opcode has a non-zero low byte;
it sets `ERR.ILL`, returns `0xFFFF` and changes nothing else. -/
def Obligations.ReservedWordsAreIllegal : Prop :=
  (∀ w : Word, (∃ r, decode w = .error r) ↔
    (∀ o : Opcode, o.code ≠ w.extractLsb' 8 8) ∨
    ∃ o : Opcode, o.code = w.extractLsb' 8 8 ∧ o.format = .n ∧ w.extractLsb' 0 8 ≠ 0) ∧
  ∀ (s : State) (w : Word) (rest : List HostInput) (r : Reserved),
    s.inbox = .command w :: rest → decode w = .error r →
    step s = .next { s with inbox := rest, err := s.err ||| 0b001, resp := some 0xFFFF }

/-- Words written out from the rows of R74, decoded. -/
def Obligations.WrittenWordsDecode : Prop :=
  decode 0b0000000000000000 = .ok .nop ∧ decode 0b0001000101010011 = .ok (.crcUpd 0x53) ∧
  decode 0b0010000100000011 = .ok (.fbByte 0x03) ∧ decode 0b0011000111111111 = .ok (.fpPush 0xFF) ∧
  decode 0b0001001110101100 = .ok (.tblRd 0xAC) ∧ decode 0b0001000000000001 = .error (.lowByteNotZero .crcClr 0x01) ∧
  decode 0b0100000000000000 = .error (.unknownOpcode 0x40)

/-- R73: a word is row `o`'s command, with the low byte for its operand where the format has one, exactly when
`cmd & mask = match`; no two rows can both match; a word that is no row's is reserved. -/
def Obligations.DecodingIsByMaskAndMatch : Prop :=
  (∀ (w : Word) (o : Opcode), w &&& o.maskWord = o.matchWord ↔
    ∃ i, decode w = .ok i ∧ i.opcode = o ∧ i.operand = if o.format = .a then some (w.extractLsb' 0 8) else none) ∧
  (∀ w : Word, (∀ o : Opcode, w &&& o.maskWord ≠ o.matchWord) ↔ ∃ r, decode w = .error r) ∧
  ∀ (w : Word) (o o' : Opcode), w &&& o.maskWord = o.matchWord → w &&& o'.maskWord = o'.matchWord → o = o'

/-- The count of R75 (the spec's inference): of the 65536 words 1037 are commands. -/
def Obligations.CommandWordsAreCounted : Prop :=
  ∃ l : List Word, l.Nodup ∧ l.length = 1037 ∧ ∀ w : Word, w ∈ l ↔ ∃ i, decode w = .ok i

/-- R88: the assembler reads back every command as it is written. What R88 leaves open of the text is the model's
choice (log entry 6). -/
def Obligations.AssemblerReadsBackEveryCommand : Prop :=
  ∀ i : Instr, assembleLine (writeCommand i) = .ok (some i)

/-- R58 (decision D26): the step of one block neither changes another nor depends on it: two blocks may be stepped in
either order. -/
def Obligations.BlocksShareNothing : Prop :=
  ∀ (blocks bs : List State) (j k : Nat), j ≠ k → stepBlock j blocks = some bs →
    bs[k]? = blocks[k]? ∧
    ∀ bs', stepBlock k bs = some bs' → ∃ cs, stepBlock k blocks = some cs ∧ stepBlock j cs = some bs'

/-! ### Headline statements -/

/-- Decoding and encoding agree on every well-formed command, with every operand. -/
def Obligations.DecodeOfEncodeIsTheCommand : Prop :=
  ∀ i : Instr, i.wf = true → decode (encode i) = .ok i

/-- The other direction: a command's word is the word it was decoded from, so every command has one word. -/
def Obligations.EncodeOfDecodeIsTheWord : Prop :=
  ∀ (w : Word) (i : Instr), decode w = .ok i → encode i = w

/-- The invariants of R38 hold after reset, whatever the parameters. -/
def Obligations.ResetMeetsTheInvariants : Prop :=
  State.reset.Inv ∧ ∀ cfg : Config, (State.initial cfg).Inv

/-- The invariants of R38, with those of R25, R28, R30 and R31, are kept by every step, whatever word or reset it
takes and whatever the parameters. -/
def Obligations.EveryStepKeepsTheInvariants : Prop :=
  ∀ s t : State, s.Inv → step s = .next t → t.Inv
end

