-- ==== Sys2Proof/Laws/Crc.lean ====
section
/-! SUPPORT. The CRC functions: a shift is linear over exclusive or and loses nothing; the fold of `upd`. -/

namespace Sys2Proof.Machine

theorem crcShift_xor (a b : Word) : crcShift (a ^^^ b) = crcShift a ^^^ crcShift b := by
  unfold crcShift
  rw [BitVec.getLsbD_xor]
  cases ha : a.getLsbD 15 <;> cases hb : b.getLsbD 15 <;> simp [BitVec.shiftLeft_xor_distrib]
  · ac_rfl
  · ac_rfl
  · rw [show a <<< 1 ^^^ crcPoly ^^^ (b <<< 1 ^^^ crcPoly) = (a <<< 1 ^^^ b <<< 1) ^^^ (crcPoly ^^^ crcPoly) by ac_rfl]
    simp

theorem crcShifts_xor (n : Nat) (a b : Word) : crcShifts n (a ^^^ b) = crcShifts n a ^^^ crcShifts n b := by
  induction n generalizing a b with
  | zero => rfl
  | succ n ih => simp [crcShifts, crcShift_xor, ih]

/-- The polynomial's lowest coefficient is 1, so that only zero shifts to zero. -/
theorem crcShift_eq_zero {r : Word} (h : crcShift r = 0) : r = 0 := by
  unfold crcShift at h
  split at h
  · exfalso
    have := congrArg (fun x => x.getLsbD 0) h
    simp [crcPoly] at this
  · rename_i h15
    ext i hi
    by_cases hh : i = 15
    · subst hh; simpa [BitVec.getLsbD_eq_getElem] using h15
    · have := congrArg (fun x => x.getLsbD (i + 1)) h
      have h16 : i + 1 < 16 := by omega
      simpa [h16, BitVec.getLsbD_eq_getElem hi] using this

theorem crcShifts_eq_zero (n : Nat) {r : Word} (h : crcShifts n r = 0) : r = 0 := by
  induction n generalizing r with
  | zero => exact h
  | succ n ih => exact crcShift_eq_zero (ih h)

/-- Shifting loses nothing. -/
theorem crcShifts_injective (n : Nat) {a b : Word} (h : crcShifts n a = crcShifts n b) : a = b := by
  have hx : crcShifts n (a ^^^ b) = 0 := by rw [crcShifts_xor, h]; simp
  exact BitVec.xor_eq_zero_iff.1 (crcShifts_eq_zero n hx)

@[simp] theorem crcFold_nil (c : Word) : crcFold c [] = c := rfl

@[simp] theorem crcFold_cons (c : Word) (b : Byte) (s : List Byte) : crcFold c (b :: s) = crcFold (upd c b) s := rfl

theorem crcFold_append (c : Word) (s t : List Byte) : crcFold c (s ++ t) = crcFold (crcFold c s) t := by
  simp [crcFold]

theorem crc16_of_ne_nil {s : List Byte} (h : s ≠ []) : crc16 s = crcFold crcInit s := by
  cases s with
  | nil => exact absurd rfl h
  | cons b t => rfl

end Sys2Proof.Machine
end

