-- ==== Sys2Proof/Laws/Encoding.lean ====
section
/-! SUPPORT. The encoding tables' small lemmas: the rows of R74 are found by their opcode, a word is its two fields, and
every `Instr` is well formed. -/

namespace Sys2Proof

/-- No two rows of R74 share an opcode, and each is found by its own. -/
theorem opcodeOf_code (o : Opcode) : opcodeOf o.code = some o := by
  cases o <;> decide

/-- A row found by an opcode has that opcode. -/
theorem code_of_opcodeOf {op : Byte} {o : Opcode} (h : opcodeOf op = some o) : o.code = op := by
  have := List.find?_some h
  simpa using this

/-- A word is its two fields. -/
theorem fields_join (w : Word) : ((opField w).zeroExtend 16 <<< 8) ||| (argField w).zeroExtend 16 = w := by
  ext i hi
  by_cases h : i < 8
  · simp [opField, argField, h, BitVec.getLsbD_eq_getElem hi]
  · have h8 : i - 8 < 8 := by omega
    have hs : 8 + (i - 8) = i := by omega
    simp [opField, argField, h, h8, hs, BitVec.getLsbD_eq_getElem hi]

/-- The opcode of an opcode over an operand. -/
@[simp] theorem opField_join (c b : Byte) : opField ((c.zeroExtend 16 <<< 8) ||| b.zeroExtend 16) = c := by
  ext i hi
  have h : ¬ 8 + i < 8 := by omega
  have h16 : 8 + i < 16 := by omega
  simp [opField, h, h16, BitVec.getLsbD_eq_getElem hi]

/-- The operand of an opcode over an operand. -/
@[simp] theorem argField_join (c b : Byte) : argField ((c.zeroExtend 16 <<< 8) ||| b.zeroExtend 16) = b := by
  ext i hi
  simp only [argField, BitVec.getElem_extractLsb', BitVec.getLsbD_or, BitVec.getLsbD_shiftLeft]
  have h16 : i < 16 := by omega
  simp [hi, h16]

/-- Every `Instr` is well formed: its type admits no other. -/
theorem Instr.wf_of_type (i : Instr) : i.wf = true := by
  cases i <;>
    simp [Instr.wf, Source.wf, Source.noOperandOnN, Source.operandOnA, Source.operandIsByte, Instr.source, Instr.opcode,
      Instr.operand, Opcode.format] <;>
    omega

end Sys2Proof
end

