-- ==== Sys2Proof/Laws/State.lean ====
section
/-! SUPPORT. One lemma per field per update of the state, true by `rfl`, so that no proof unfolds a record update. -/

namespace Sys2Proof.Machine

/-! ### `State.respond` -/

@[simp] theorem State.respond_cfg (s : State) (v : Word) : (s.respond v).cfg = s.cfg := rfl
@[simp] theorem State.respond_crc (s : State) (v : Word) : (s.respond v).crc = s.crc := rfl
@[simp] theorem State.respond_ne (s : State) (v : Word) : (s.respond v).ne = s.ne := rfl
@[simp] theorem State.respond_fbSt (s : State) (v : Word) : (s.respond v).fbSt = s.fbSt := rfl
@[simp] theorem State.respond_fbCrc (s : State) (v : Word) : (s.respond v).fbCrc = s.fbCrc := rfl
@[simp] theorem State.respond_tx (s : State) (v : Word) : (s.respond v).tx = s.tx := rfl
@[simp] theorem State.respond_acc (s : State) (v : Word) : (s.respond v).acc = s.acc := rfl
@[simp] theorem State.respond_eosf (s : State) (v : Word) : (s.respond v).eosf = s.eosf := rfl
@[simp] theorem State.respond_res (s : State) (v : Word) : (s.respond v).res = s.res := rfl
@[simp] theorem State.respond_lo (s : State) (v : Word) : (s.respond v).lo = s.lo := rfl
@[simp] theorem State.respond_hi (s : State) (v : Word) : (s.respond v).hi = s.hi := rfl
@[simp] theorem State.respond_rp (s : State) (v : Word) : (s.respond v).rp = s.rp := rfl
@[simp] theorem State.respond_rxcrc (s : State) (v : Word) : (s.respond v).rxcrc = s.rxcrc := rfl
@[simp] theorem State.respond_calcCrc (s : State) (v : Word) : (s.respond v).calcCrc = s.calcCrc := rfl
@[simp] theorem State.respond_err (s : State) (v : Word) : (s.respond v).err = s.err := rfl
@[simp] theorem State.respond_inbox (s : State) (v : Word) : (s.respond v).inbox = s.inbox := rfl
@[simp] theorem State.respond_resp (s : State) (v : Word) : (s.respond v).resp = some v := rfl

/-! ### `State.setErr` -/

@[simp] theorem State.setErr_cfg (s : State) (bit : BitVec 3) : (s.setErr bit).cfg = s.cfg := rfl
@[simp] theorem State.setErr_crc (s : State) (bit : BitVec 3) : (s.setErr bit).crc = s.crc := rfl
@[simp] theorem State.setErr_ne (s : State) (bit : BitVec 3) : (s.setErr bit).ne = s.ne := rfl
@[simp] theorem State.setErr_fbSt (s : State) (bit : BitVec 3) : (s.setErr bit).fbSt = s.fbSt := rfl
@[simp] theorem State.setErr_fbCrc (s : State) (bit : BitVec 3) : (s.setErr bit).fbCrc = s.fbCrc := rfl
@[simp] theorem State.setErr_tx (s : State) (bit : BitVec 3) : (s.setErr bit).tx = s.tx := rfl
@[simp] theorem State.setErr_acc (s : State) (bit : BitVec 3) : (s.setErr bit).acc = s.acc := rfl
@[simp] theorem State.setErr_eosf (s : State) (bit : BitVec 3) : (s.setErr bit).eosf = s.eosf := rfl
@[simp] theorem State.setErr_res (s : State) (bit : BitVec 3) : (s.setErr bit).res = s.res := rfl
@[simp] theorem State.setErr_lo (s : State) (bit : BitVec 3) : (s.setErr bit).lo = s.lo := rfl
@[simp] theorem State.setErr_hi (s : State) (bit : BitVec 3) : (s.setErr bit).hi = s.hi := rfl
@[simp] theorem State.setErr_rp (s : State) (bit : BitVec 3) : (s.setErr bit).rp = s.rp := rfl
@[simp] theorem State.setErr_rxcrc (s : State) (bit : BitVec 3) : (s.setErr bit).rxcrc = s.rxcrc := rfl
@[simp] theorem State.setErr_calcCrc (s : State) (bit : BitVec 3) : (s.setErr bit).calcCrc = s.calcCrc := rfl
@[simp] theorem State.setErr_err (s : State) (bit : BitVec 3) : (s.setErr bit).err = s.err ||| bit := rfl
@[simp] theorem State.setErr_inbox (s : State) (bit : BitVec 3) : (s.setErr bit).inbox = s.inbox := rfl
@[simp] theorem State.setErr_resp (s : State) (bit : BitVec 3) : (s.setErr bit).resp = s.resp := rfl

/-! ### `State.error` -/

@[simp] theorem State.error_cfg (s : State) (bit : BitVec 3) : (s.error bit).cfg = s.cfg := rfl
@[simp] theorem State.error_crc (s : State) (bit : BitVec 3) : (s.error bit).crc = s.crc := rfl
@[simp] theorem State.error_ne (s : State) (bit : BitVec 3) : (s.error bit).ne = s.ne := rfl
@[simp] theorem State.error_fbSt (s : State) (bit : BitVec 3) : (s.error bit).fbSt = s.fbSt := rfl
@[simp] theorem State.error_fbCrc (s : State) (bit : BitVec 3) : (s.error bit).fbCrc = s.fbCrc := rfl
@[simp] theorem State.error_tx (s : State) (bit : BitVec 3) : (s.error bit).tx = s.tx := rfl
@[simp] theorem State.error_acc (s : State) (bit : BitVec 3) : (s.error bit).acc = s.acc := rfl
@[simp] theorem State.error_eosf (s : State) (bit : BitVec 3) : (s.error bit).eosf = s.eosf := rfl
@[simp] theorem State.error_res (s : State) (bit : BitVec 3) : (s.error bit).res = s.res := rfl
@[simp] theorem State.error_lo (s : State) (bit : BitVec 3) : (s.error bit).lo = s.lo := rfl
@[simp] theorem State.error_hi (s : State) (bit : BitVec 3) : (s.error bit).hi = s.hi := rfl
@[simp] theorem State.error_rp (s : State) (bit : BitVec 3) : (s.error bit).rp = s.rp := rfl
@[simp] theorem State.error_rxcrc (s : State) (bit : BitVec 3) : (s.error bit).rxcrc = s.rxcrc := rfl
@[simp] theorem State.error_calcCrc (s : State) (bit : BitVec 3) : (s.error bit).calcCrc = s.calcCrc := rfl
@[simp] theorem State.error_err (s : State) (bit : BitVec 3) : (s.error bit).err = s.err ||| bit := rfl
@[simp] theorem State.error_inbox (s : State) (bit : BitVec 3) : (s.error bit).inbox = s.inbox := rfl
@[simp] theorem State.error_resp (s : State) (bit : BitVec 3) : (s.error bit).resp = some 0xFFFF := rfl

/-! ### `State.emit` -/

@[simp] theorem State.emit_cfg (s : State) (bytes : List Byte) : (s.emit bytes).cfg = s.cfg := rfl
@[simp] theorem State.emit_crc (s : State) (bytes : List Byte) : (s.emit bytes).crc = s.crc := rfl
@[simp] theorem State.emit_ne (s : State) (bytes : List Byte) : (s.emit bytes).ne = s.ne := rfl
@[simp] theorem State.emit_fbSt (s : State) (bytes : List Byte) : (s.emit bytes).fbSt = s.fbSt := rfl
@[simp] theorem State.emit_fbCrc (s : State) (bytes : List Byte) : (s.emit bytes).fbCrc = s.fbCrc := rfl
@[simp] theorem State.emit_tx (s : State) (bytes : List Byte) : (s.emit bytes).tx = s.tx ++ bytes := rfl
@[simp] theorem State.emit_acc (s : State) (bytes : List Byte) : (s.emit bytes).acc = s.acc := rfl
@[simp] theorem State.emit_eosf (s : State) (bytes : List Byte) : (s.emit bytes).eosf = s.eosf := rfl
@[simp] theorem State.emit_res (s : State) (bytes : List Byte) : (s.emit bytes).res = s.res := rfl
@[simp] theorem State.emit_lo (s : State) (bytes : List Byte) : (s.emit bytes).lo = s.lo := rfl
@[simp] theorem State.emit_hi (s : State) (bytes : List Byte) : (s.emit bytes).hi = s.hi := rfl
@[simp] theorem State.emit_rp (s : State) (bytes : List Byte) : (s.emit bytes).rp = s.rp := rfl
@[simp] theorem State.emit_rxcrc (s : State) (bytes : List Byte) : (s.emit bytes).rxcrc = s.rxcrc := rfl
@[simp] theorem State.emit_calcCrc (s : State) (bytes : List Byte) : (s.emit bytes).calcCrc = s.calcCrc := rfl
@[simp] theorem State.emit_err (s : State) (bytes : List Byte) : (s.emit bytes).err = s.err := rfl
@[simp] theorem State.emit_inbox (s : State) (bytes : List Byte) : (s.emit bytes).inbox = s.inbox := rfl
@[simp] theorem State.emit_resp (s : State) (bytes : List Byte) : (s.emit bytes).resp = s.resp := rfl

/-! ### `State.append` -/

@[simp] theorem State.append_cfg (s : State) (b : Byte) : (s.append b).cfg = s.cfg := rfl
@[simp] theorem State.append_crc (s : State) (b : Byte) : (s.append b).crc = s.crc := rfl
@[simp] theorem State.append_ne (s : State) (b : Byte) : (s.append b).ne = s.ne := rfl
@[simp] theorem State.append_fbSt (s : State) (b : Byte) : (s.append b).fbSt = s.fbSt := rfl
@[simp] theorem State.append_fbCrc (s : State) (b : Byte) : (s.append b).fbCrc = s.fbCrc := rfl
@[simp] theorem State.append_tx (s : State) (b : Byte) : (s.append b).tx = s.tx := rfl
@[simp] theorem State.append_acc (s : State) (b : Byte) : (s.append b).acc = s.acc ++ [b] := rfl
@[simp] theorem State.append_eosf (s : State) (b : Byte) : (s.append b).eosf = s.eosf := rfl
@[simp] theorem State.append_res (s : State) (b : Byte) : (s.append b).res = s.res := rfl
@[simp] theorem State.append_lo (s : State) (b : Byte) : (s.append b).lo = s.lo := rfl
@[simp] theorem State.append_hi (s : State) (b : Byte) : (s.append b).hi = s.hi := rfl
@[simp] theorem State.append_rp (s : State) (b : Byte) : (s.append b).rp = s.rp := rfl
@[simp] theorem State.append_rxcrc (s : State) (b : Byte) : (s.append b).rxcrc = s.rxcrc := rfl
@[simp] theorem State.append_calcCrc (s : State) (b : Byte) : (s.append b).calcCrc = s.calcCrc := rfl
@[simp] theorem State.append_err (s : State) (b : Byte) : (s.append b).err = s.err := rfl
@[simp] theorem State.append_inbox (s : State) (b : Byte) : (s.append b).inbox = s.inbox := rfl
@[simp] theorem State.append_resp (s : State) (b : Byte) : (s.append b).resp = s.resp := rfl

/-! ### `State.respondStatus` -/

@[simp] theorem State.respondStatus_cfg (s : State) (drop : Bool) : (s.respondStatus drop).cfg = s.cfg := rfl
@[simp] theorem State.respondStatus_crc (s : State) (drop : Bool) : (s.respondStatus drop).crc = s.crc := rfl
@[simp] theorem State.respondStatus_ne (s : State) (drop : Bool) : (s.respondStatus drop).ne = s.ne := rfl
@[simp] theorem State.respondStatus_fbSt (s : State) (drop : Bool) : (s.respondStatus drop).fbSt = s.fbSt := rfl
@[simp] theorem State.respondStatus_fbCrc (s : State) (drop : Bool) : (s.respondStatus drop).fbCrc = s.fbCrc := rfl
@[simp] theorem State.respondStatus_tx (s : State) (drop : Bool) : (s.respondStatus drop).tx = s.tx := rfl
@[simp] theorem State.respondStatus_acc (s : State) (drop : Bool) : (s.respondStatus drop).acc = s.acc := rfl
@[simp] theorem State.respondStatus_eosf (s : State) (drop : Bool) : (s.respondStatus drop).eosf = s.eosf := rfl
@[simp] theorem State.respondStatus_res (s : State) (drop : Bool) : (s.respondStatus drop).res = s.res := rfl
@[simp] theorem State.respondStatus_lo (s : State) (drop : Bool) : (s.respondStatus drop).lo = s.lo := rfl
@[simp] theorem State.respondStatus_hi (s : State) (drop : Bool) : (s.respondStatus drop).hi = s.hi := rfl
@[simp] theorem State.respondStatus_rp (s : State) (drop : Bool) : (s.respondStatus drop).rp = s.rp := rfl
@[simp] theorem State.respondStatus_rxcrc (s : State) (drop : Bool) : (s.respondStatus drop).rxcrc = s.rxcrc := rfl
@[simp] theorem State.respondStatus_calcCrc (s : State) (drop : Bool) : (s.respondStatus drop).calcCrc = s.calcCrc := rfl
@[simp] theorem State.respondStatus_err (s : State) (drop : Bool) : (s.respondStatus drop).err = s.err := rfl
@[simp] theorem State.respondStatus_inbox (s : State) (drop : Bool) : (s.respondStatus drop).inbox = s.inbox := rfl
@[simp] theorem State.respondStatus_resp (s : State) (drop : Bool) : (s.respondStatus drop).resp = some (s.statw drop) := rfl

/-! ### `State.clearCrc` -/

@[simp] theorem State.clearCrc_cfg (s : State) : s.clearCrc.cfg = s.cfg := rfl
@[simp] theorem State.clearCrc_crc (s : State) : s.clearCrc.crc = crcInit := rfl
@[simp] theorem State.clearCrc_ne (s : State) : s.clearCrc.ne = false := rfl
@[simp] theorem State.clearCrc_fbSt (s : State) : s.clearCrc.fbSt = s.fbSt := rfl
@[simp] theorem State.clearCrc_fbCrc (s : State) : s.clearCrc.fbCrc = s.fbCrc := rfl
@[simp] theorem State.clearCrc_tx (s : State) : s.clearCrc.tx = s.tx := rfl
@[simp] theorem State.clearCrc_acc (s : State) : s.clearCrc.acc = s.acc := rfl
@[simp] theorem State.clearCrc_eosf (s : State) : s.clearCrc.eosf = s.eosf := rfl
@[simp] theorem State.clearCrc_res (s : State) : s.clearCrc.res = s.res := rfl
@[simp] theorem State.clearCrc_lo (s : State) : s.clearCrc.lo = s.lo := rfl
@[simp] theorem State.clearCrc_hi (s : State) : s.clearCrc.hi = s.hi := rfl
@[simp] theorem State.clearCrc_rp (s : State) : s.clearCrc.rp = s.rp := rfl
@[simp] theorem State.clearCrc_rxcrc (s : State) : s.clearCrc.rxcrc = s.rxcrc := rfl
@[simp] theorem State.clearCrc_calcCrc (s : State) : s.clearCrc.calcCrc = s.calcCrc := rfl
@[simp] theorem State.clearCrc_err (s : State) : s.clearCrc.err = s.err := rfl
@[simp] theorem State.clearCrc_inbox (s : State) : s.clearCrc.inbox = s.inbox := rfl
@[simp] theorem State.clearCrc_resp (s : State) : s.clearCrc.resp = s.resp := rfl

/-! ### `State.clearBuilder` -/

@[simp] theorem State.clearBuilder_cfg (s : State) : s.clearBuilder.cfg = s.cfg := rfl
@[simp] theorem State.clearBuilder_crc (s : State) : s.clearBuilder.crc = s.crc := rfl
@[simp] theorem State.clearBuilder_ne (s : State) : s.clearBuilder.ne = s.ne := rfl
@[simp] theorem State.clearBuilder_fbSt (s : State) : s.clearBuilder.fbSt = .idle := rfl
@[simp] theorem State.clearBuilder_fbCrc (s : State) : s.clearBuilder.fbCrc = crcInit := rfl
@[simp] theorem State.clearBuilder_tx (s : State) : s.clearBuilder.tx = s.tx := rfl
@[simp] theorem State.clearBuilder_acc (s : State) : s.clearBuilder.acc = s.acc := rfl
@[simp] theorem State.clearBuilder_eosf (s : State) : s.clearBuilder.eosf = s.eosf := rfl
@[simp] theorem State.clearBuilder_res (s : State) : s.clearBuilder.res = s.res := rfl
@[simp] theorem State.clearBuilder_lo (s : State) : s.clearBuilder.lo = s.lo := rfl
@[simp] theorem State.clearBuilder_hi (s : State) : s.clearBuilder.hi = s.hi := rfl
@[simp] theorem State.clearBuilder_rp (s : State) : s.clearBuilder.rp = s.rp := rfl
@[simp] theorem State.clearBuilder_rxcrc (s : State) : s.clearBuilder.rxcrc = s.rxcrc := rfl
@[simp] theorem State.clearBuilder_calcCrc (s : State) : s.clearBuilder.calcCrc = s.calcCrc := rfl
@[simp] theorem State.clearBuilder_err (s : State) : s.clearBuilder.err = s.err := rfl
@[simp] theorem State.clearBuilder_inbox (s : State) : s.clearBuilder.inbox = s.inbox := rfl
@[simp] theorem State.clearBuilder_resp (s : State) : s.clearBuilder.resp = s.resp := rfl

/-! ### `State.clearParser` -/

@[simp] theorem State.clearParser_cfg (s : State) : s.clearParser.cfg = s.cfg := rfl
@[simp] theorem State.clearParser_crc (s : State) : s.clearParser.crc = s.crc := rfl
@[simp] theorem State.clearParser_ne (s : State) : s.clearParser.ne = s.ne := rfl
@[simp] theorem State.clearParser_fbSt (s : State) : s.clearParser.fbSt = s.fbSt := rfl
@[simp] theorem State.clearParser_fbCrc (s : State) : s.clearParser.fbCrc = s.fbCrc := rfl
@[simp] theorem State.clearParser_tx (s : State) : s.clearParser.tx = s.tx := rfl
@[simp] theorem State.clearParser_acc (s : State) : s.clearParser.acc = [] := rfl
@[simp] theorem State.clearParser_eosf (s : State) : s.clearParser.eosf = false := rfl
@[simp] theorem State.clearParser_res (s : State) : s.clearParser.res = .pending := rfl
@[simp] theorem State.clearParser_lo (s : State) : s.clearParser.lo = 0 := rfl
@[simp] theorem State.clearParser_hi (s : State) : s.clearParser.hi = 0 := rfl
@[simp] theorem State.clearParser_rp (s : State) : s.clearParser.rp = 0 := rfl
@[simp] theorem State.clearParser_rxcrc (s : State) : s.clearParser.rxcrc = 0x0000 := rfl
@[simp] theorem State.clearParser_calcCrc (s : State) : s.clearParser.calcCrc = 0x0000 := rfl
@[simp] theorem State.clearParser_err (s : State) : s.clearParser.err = s.err := rfl
@[simp] theorem State.clearParser_inbox (s : State) : s.clearParser.inbox = s.inbox := rfl
@[simp] theorem State.clearParser_resp (s : State) : s.clearParser.resp = s.resp := rfl

/-! ### `State.clearErr` -/

@[simp] theorem State.clearErr_cfg (s : State) : s.clearErr.cfg = s.cfg := rfl
@[simp] theorem State.clearErr_crc (s : State) : s.clearErr.crc = s.crc := rfl
@[simp] theorem State.clearErr_ne (s : State) : s.clearErr.ne = s.ne := rfl
@[simp] theorem State.clearErr_fbSt (s : State) : s.clearErr.fbSt = s.fbSt := rfl
@[simp] theorem State.clearErr_fbCrc (s : State) : s.clearErr.fbCrc = s.fbCrc := rfl
@[simp] theorem State.clearErr_tx (s : State) : s.clearErr.tx = s.tx := rfl
@[simp] theorem State.clearErr_acc (s : State) : s.clearErr.acc = s.acc := rfl
@[simp] theorem State.clearErr_eosf (s : State) : s.clearErr.eosf = s.eosf := rfl
@[simp] theorem State.clearErr_res (s : State) : s.clearErr.res = s.res := rfl
@[simp] theorem State.clearErr_lo (s : State) : s.clearErr.lo = s.lo := rfl
@[simp] theorem State.clearErr_hi (s : State) : s.clearErr.hi = s.hi := rfl
@[simp] theorem State.clearErr_rp (s : State) : s.clearErr.rp = s.rp := rfl
@[simp] theorem State.clearErr_rxcrc (s : State) : s.clearErr.rxcrc = s.rxcrc := rfl
@[simp] theorem State.clearErr_calcCrc (s : State) : s.clearErr.calcCrc = s.calcCrc := rfl
@[simp] theorem State.clearErr_err (s : State) : s.clearErr.err = 0b000 := rfl
@[simp] theorem State.clearErr_inbox (s : State) : s.clearErr.inbox = s.inbox := rfl
@[simp] theorem State.clearErr_resp (s : State) : s.clearErr.resp = s.resp := rfl

/-! ### `State.idle` -/

@[simp] theorem State.idle_cfg (s : State) : s.idle.cfg = s.cfg := rfl
@[simp] theorem State.idle_crc (s : State) : s.idle.crc = s.crc := rfl
@[simp] theorem State.idle_ne (s : State) : s.idle.ne = s.ne := rfl
@[simp] theorem State.idle_fbSt (s : State) : s.idle.fbSt = s.fbSt := rfl
@[simp] theorem State.idle_fbCrc (s : State) : s.idle.fbCrc = s.fbCrc := rfl
@[simp] theorem State.idle_tx (s : State) : s.idle.tx = s.tx := rfl
@[simp] theorem State.idle_acc (s : State) : s.idle.acc = s.acc := rfl
@[simp] theorem State.idle_eosf (s : State) : s.idle.eosf = s.eosf := rfl
@[simp] theorem State.idle_res (s : State) : s.idle.res = s.res := rfl
@[simp] theorem State.idle_lo (s : State) : s.idle.lo = s.lo := rfl
@[simp] theorem State.idle_hi (s : State) : s.idle.hi = s.hi := rfl
@[simp] theorem State.idle_rp (s : State) : s.idle.rp = s.rp := rfl
@[simp] theorem State.idle_rxcrc (s : State) : s.idle.rxcrc = s.rxcrc := rfl
@[simp] theorem State.idle_calcCrc (s : State) : s.idle.calcCrc = s.calcCrc := rfl
@[simp] theorem State.idle_err (s : State) : s.idle.err = s.err := rfl
@[simp] theorem State.idle_inbox (s : State) : s.idle.inbox = s.inbox := rfl
@[simp] theorem State.idle_resp (s : State) : s.idle.resp = none := rfl

/-! ### `State.hardwareReset` -/

@[simp] theorem State.hardwareReset_cfg (s : State) : s.hardwareReset.cfg = s.cfg := rfl
@[simp] theorem State.hardwareReset_crc (s : State) : s.hardwareReset.crc = 0xFFFF := rfl
@[simp] theorem State.hardwareReset_ne (s : State) : s.hardwareReset.ne = false := rfl
@[simp] theorem State.hardwareReset_fbSt (s : State) : s.hardwareReset.fbSt = .idle := rfl
@[simp] theorem State.hardwareReset_fbCrc (s : State) : s.hardwareReset.fbCrc = 0xFFFF := rfl
@[simp] theorem State.hardwareReset_tx (s : State) : s.hardwareReset.tx = [] := rfl
@[simp] theorem State.hardwareReset_acc (s : State) : s.hardwareReset.acc = [] := rfl
@[simp] theorem State.hardwareReset_eosf (s : State) : s.hardwareReset.eosf = false := rfl
@[simp] theorem State.hardwareReset_res (s : State) : s.hardwareReset.res = .pending := rfl
@[simp] theorem State.hardwareReset_lo (s : State) : s.hardwareReset.lo = 0 := rfl
@[simp] theorem State.hardwareReset_hi (s : State) : s.hardwareReset.hi = 0 := rfl
@[simp] theorem State.hardwareReset_rp (s : State) : s.hardwareReset.rp = 0 := rfl
@[simp] theorem State.hardwareReset_rxcrc (s : State) : s.hardwareReset.rxcrc = 0x0000 := rfl
@[simp] theorem State.hardwareReset_calcCrc (s : State) : s.hardwareReset.calcCrc = 0x0000 := rfl
@[simp] theorem State.hardwareReset_err (s : State) : s.hardwareReset.err = 0b000 := rfl
@[simp] theorem State.hardwareReset_inbox (s : State) : s.hardwareReset.inbox = s.inbox := rfl
@[simp] theorem State.hardwareReset_resp (s : State) : s.hardwareReset.resp = none := rfl

/-! ### `State.latch`: the registers a verdict never writes -/

@[simp] theorem State.latch_cfg (s : State) (v : Verdict) : (s.latch v).cfg = s.cfg := by
  cases v <;> rfl
@[simp] theorem State.latch_crc (s : State) (v : Verdict) : (s.latch v).crc = s.crc := by
  cases v <;> rfl
@[simp] theorem State.latch_ne (s : State) (v : Verdict) : (s.latch v).ne = s.ne := by
  cases v <;> rfl
@[simp] theorem State.latch_fbSt (s : State) (v : Verdict) : (s.latch v).fbSt = s.fbSt := by
  cases v <;> rfl
@[simp] theorem State.latch_fbCrc (s : State) (v : Verdict) : (s.latch v).fbCrc = s.fbCrc := by
  cases v <;> rfl
@[simp] theorem State.latch_tx (s : State) (v : Verdict) : (s.latch v).tx = s.tx := by
  cases v <;> rfl
@[simp] theorem State.latch_acc (s : State) (v : Verdict) : (s.latch v).acc = s.acc := by
  cases v <;> rfl
@[simp] theorem State.latch_eosf (s : State) (v : Verdict) : (s.latch v).eosf = s.eosf := by
  cases v <;> rfl
@[simp] theorem State.latch_err (s : State) (v : Verdict) : (s.latch v).err = s.err := by
  cases v <;> rfl
@[simp] theorem State.latch_inbox (s : State) (v : Verdict) : (s.latch v).inbox = s.inbox := by
  cases v <;> rfl
@[simp] theorem State.latch_resp (s : State) (v : Verdict) : (s.latch v).resp = s.resp := by
  cases v <;> rfl

/-! ### `State.latch`: the registers a verdict may write -/

@[simp] theorem State.latch_pending_res (s : State) : (s.latch .pending).res = s.res := rfl
@[simp] theorem State.latch_pending_lo (s : State) : (s.latch .pending).lo = s.lo := rfl
@[simp] theorem State.latch_pending_hi (s : State) : (s.latch .pending).hi = s.hi := rfl
@[simp] theorem State.latch_pending_rp (s : State) : (s.latch .pending).rp = s.rp := rfl
@[simp] theorem State.latch_pending_rxcrc (s : State) : (s.latch .pending).rxcrc = s.rxcrc := rfl
@[simp] theorem State.latch_pending_calcCrc (s : State) : (s.latch .pending).calcCrc = s.calcCrc := rfl

@[simp] theorem State.latch_ack_res (s : State) : (s.latch .ack).res = .ack := rfl
@[simp] theorem State.latch_ack_lo (s : State) : (s.latch .ack).lo = s.lo := rfl
@[simp] theorem State.latch_ack_hi (s : State) : (s.latch .ack).hi = s.hi := rfl
@[simp] theorem State.latch_ack_rp (s : State) : (s.latch .ack).rp = s.rp := rfl
@[simp] theorem State.latch_ack_rxcrc (s : State) : (s.latch .ack).rxcrc = s.rxcrc := rfl
@[simp] theorem State.latch_ack_calcCrc (s : State) : (s.latch .ack).calcCrc = s.calcCrc := rfl

@[simp] theorem State.latch_nak_res (s : State) : (s.latch .nak).res = .nak := rfl
@[simp] theorem State.latch_nak_lo (s : State) : (s.latch .nak).lo = s.lo := rfl
@[simp] theorem State.latch_nak_hi (s : State) : (s.latch .nak).hi = s.hi := rfl
@[simp] theorem State.latch_nak_rp (s : State) : (s.latch .nak).rp = s.rp := rfl
@[simp] theorem State.latch_nak_rxcrc (s : State) : (s.latch .nak).rxcrc = s.rxcrc := rfl
@[simp] theorem State.latch_nak_calcCrc (s : State) : (s.latch .nak).calcCrc = s.calcCrc := rfl

@[simp] theorem State.latch_crcFormatError_res (s : State) : (s.latch .crcFormatError).res = .crcFormatError := rfl
@[simp] theorem State.latch_crcFormatError_lo (s : State) : (s.latch .crcFormatError).lo = s.lo := rfl
@[simp] theorem State.latch_crcFormatError_hi (s : State) : (s.latch .crcFormatError).hi = s.hi := rfl
@[simp] theorem State.latch_crcFormatError_rp (s : State) : (s.latch .crcFormatError).rp = s.rp := rfl
@[simp] theorem State.latch_crcFormatError_rxcrc (s : State) : (s.latch .crcFormatError).rxcrc = s.rxcrc := rfl
@[simp] theorem State.latch_crcFormatError_calcCrc (s : State) : (s.latch .crcFormatError).calcCrc = s.calcCrc := rfl

@[simp] theorem State.latch_crcMismatchError_res (s : State) (v c : Word) : (s.latch (.crcMismatchError v c)).res = .crcMismatchError := rfl
@[simp] theorem State.latch_crcMismatchError_lo (s : State) (v c : Word) : (s.latch (.crcMismatchError v c)).lo = s.lo := rfl
@[simp] theorem State.latch_crcMismatchError_hi (s : State) (v c : Word) : (s.latch (.crcMismatchError v c)).hi = s.hi := rfl
@[simp] theorem State.latch_crcMismatchError_rp (s : State) (v c : Word) : (s.latch (.crcMismatchError v c)).rp = s.rp := rfl
@[simp] theorem State.latch_crcMismatchError_rxcrc (s : State) (v c : Word) : (s.latch (.crcMismatchError v c)).rxcrc = v := rfl
@[simp] theorem State.latch_crcMismatchError_calcCrc (s : State) (v c : Word) : (s.latch (.crcMismatchError v c)).calcCrc = c := rfl

@[simp] theorem State.latch_framedText_res (s : State) (lo hi : Nat) (v c : Word) : (s.latch (.framedText lo hi v c)).res = .framedText := rfl
@[simp] theorem State.latch_framedText_lo (s : State) (lo hi : Nat) (v c : Word) : (s.latch (.framedText lo hi v c)).lo = lo := rfl
@[simp] theorem State.latch_framedText_hi (s : State) (lo hi : Nat) (v c : Word) : (s.latch (.framedText lo hi v c)).hi = hi := rfl
@[simp] theorem State.latch_framedText_rp (s : State) (lo hi : Nat) (v c : Word) : (s.latch (.framedText lo hi v c)).rp = lo := rfl
@[simp] theorem State.latch_framedText_rxcrc (s : State) (lo hi : Nat) (v c : Word) : (s.latch (.framedText lo hi v c)).rxcrc = v := rfl
@[simp] theorem State.latch_framedText_calcCrc (s : State) (lo hi : Nat) (v c : Word) : (s.latch (.framedText lo hi v c)).calcCrc = c := rfl

@[simp] theorem State.latch_rawText_res (s : State) (lo hi : Nat) : (s.latch (.rawText lo hi)).res = .rawText := rfl
@[simp] theorem State.latch_rawText_lo (s : State) (lo hi : Nat) : (s.latch (.rawText lo hi)).lo = lo := rfl
@[simp] theorem State.latch_rawText_hi (s : State) (lo hi : Nat) : (s.latch (.rawText lo hi)).hi = hi := rfl
@[simp] theorem State.latch_rawText_rp (s : State) (lo hi : Nat) : (s.latch (.rawText lo hi)).rp = lo := rfl
@[simp] theorem State.latch_rawText_rxcrc (s : State) (lo hi : Nat) : (s.latch (.rawText lo hi)).rxcrc = s.rxcrc := rfl
@[simp] theorem State.latch_rawText_calcCrc (s : State) (lo hi : Nat) : (s.latch (.rawText lo hi)).calcCrc = s.calcCrc := rfl

@[simp] theorem State.latch_noData_res (s : State) : (s.latch .noData).res = .noData := rfl
@[simp] theorem State.latch_noData_lo (s : State) : (s.latch .noData).lo = s.lo := rfl
@[simp] theorem State.latch_noData_hi (s : State) : (s.latch .noData).hi = s.hi := rfl
@[simp] theorem State.latch_noData_rp (s : State) : (s.latch .noData).rp = s.rp := rfl
@[simp] theorem State.latch_noData_rxcrc (s : State) : (s.latch .noData).rxcrc = s.rxcrc := rfl
@[simp] theorem State.latch_noData_calcCrc (s : State) : (s.latch .noData).calcCrc = s.calcCrc := rfl

/-! ### the state after hardware reset -/

@[simp] theorem State.initial_cfg (cfg : Config) : (State.initial cfg).cfg = cfg := rfl
@[simp] theorem State.initial_crc (cfg : Config) : (State.initial cfg).crc = 0xFFFF := rfl
@[simp] theorem State.initial_ne (cfg : Config) : (State.initial cfg).ne = false := rfl
@[simp] theorem State.initial_fbSt (cfg : Config) : (State.initial cfg).fbSt = .idle := rfl
@[simp] theorem State.initial_fbCrc (cfg : Config) : (State.initial cfg).fbCrc = 0xFFFF := rfl
@[simp] theorem State.initial_tx (cfg : Config) : (State.initial cfg).tx = [] := rfl
@[simp] theorem State.initial_acc (cfg : Config) : (State.initial cfg).acc = [] := rfl
@[simp] theorem State.initial_eosf (cfg : Config) : (State.initial cfg).eosf = false := rfl
@[simp] theorem State.initial_res (cfg : Config) : (State.initial cfg).res = .pending := rfl
@[simp] theorem State.initial_lo (cfg : Config) : (State.initial cfg).lo = 0 := rfl
@[simp] theorem State.initial_hi (cfg : Config) : (State.initial cfg).hi = 0 := rfl
@[simp] theorem State.initial_rp (cfg : Config) : (State.initial cfg).rp = 0 := rfl
@[simp] theorem State.initial_rxcrc (cfg : Config) : (State.initial cfg).rxcrc = 0x0000 := rfl
@[simp] theorem State.initial_calcCrc (cfg : Config) : (State.initial cfg).calcCrc = 0x0000 := rfl
@[simp] theorem State.initial_err (cfg : Config) : (State.initial cfg).err = 0b000 := rfl
@[simp] theorem State.initial_inbox (cfg : Config) : (State.initial cfg).inbox = [] := rfl
@[simp] theorem State.initial_resp (cfg : Config) : (State.initial cfg).resp = none := rfl

end Sys2Proof.Machine
end

