-- ==== Sys2Proof/Laws/Ops.lean ====
section
/-! SUPPORT. For each shared operation one lemma that says everything it can do; the proofs cite these and unfold
nothing. The block has no addressed memory and no canonical form to keep (R50): `ACC` and `TX` are byte sequences. -/

namespace Sys2Proof.Machine

/-! ### Ports -/

theorem State.takeInput_of_nil {s : State} (h : s.inbox = []) : s.takeInput = none := by
  simp [State.takeInput, h]

theorem State.takeInput_of_cons {s : State} {x : HostInput} {rest : List HostInput} (h : s.inbox = x :: rest) :
    s.takeInput = some (x, { s with inbox := rest }) := by
  simp [State.takeInput, h]

/-- Both kinds of reserved word execute alike. -/
theorem execReserved_eq (r : Reserved) (s : State) : execReserved r s = .next (s.error errIll) := by
  cases r <;> rfl

/-! ### The accumulator -/

theorem State.accFull_iff (s : State) : s.accFull = true ↔ s.cfg.accMax = some s.acc.length := by
  simp [State.accFull]

/-- Where the accumulator has a byte, no free value is involved. -/
theorem State.accByte_of_getElem? {s : State} {i : Nat} {b : Byte} (h : s.acc[i]? = some b) : s.accByte i = b := by
  simp [State.accByte, h]

theorem ResultCode.terminal_iff (r : ResultCode) : r.terminal = true ↔ r ≠ .pending := by
  simp [ResultCode.terminal]

/-! ### The two meanings that branch on the accumulator -/

/-- `FP.PUSH` as one next state. -/
theorem exec_fpPush (b : Byte) (s : State) :
    exec (.fpPush b) s = .next
      (if s.res.terminal then s.respondStatus true
       else if s.accFull then ({ s with res := .overflow }.setErr errOvf).respondStatus true
       else ((s.append b).latch (classify s.cfg (s.acc ++ [b]))).respondStatus false) := by
  simp only [exec, execFpPush]
  split
  · rfl
  · split <;> rfl

/-- `FP.EOS` as one next state. -/
theorem exec_fpEos (s : State) :
    exec .fpEos s = .next
      (if s.res.terminal then s.respondStatus true
       else ({ s with eosf := true }.latch (classifyEos s.cfg s.acc)).respondStatus false) := by
  simp only [exec, execFpEos]
  split <;> rfl

/-! ### Sequences of commands -/

@[simp] theorem runCommands_nil (s : State) : runCommands [] s = .next s := rfl

theorem runCommands_cons {i : Instr} {s t : State} (rest : List Instr) (h : exec i s = .next t) :
    runCommands (i :: rest) s = runCommands rest t := by
  simp [runCommands, h]

theorem responses_cons {i : Instr} {s t : State} (rest : List Instr) (h : exec i s = .next t) :
    responses (i :: rest) s = t.resp.toList ++ responses rest t := by
  simp [responses, h]

/-- A sequence that completes can be cut anywhere. -/
theorem runCommands_append {a : List Instr} (b : List Instr) {s t : State} (h : runCommands a s = .next t) :
    runCommands (a ++ b) s = runCommands b t := by
  induction a generalizing s with
  | nil =>
    simp only [runCommands_nil, Host.Outcome.next.injEq] at h
    rw [h, List.nil_append]
  | cons i a ih =>
    simp only [List.cons_append, runCommands] at h ⊢
    cases he : exec i s with
    | next u => rw [he] at h; exact ih h
    | fault f => cases f
    | refused r => rw [he] at h; cases h

theorem responses_append {a : List Instr} (b : List Instr) {s t : State} (h : runCommands a s = .next t) :
    responses (a ++ b) s = responses a s ++ responses b t := by
  induction a generalizing s with
  | nil =>
    simp only [runCommands_nil, Host.Outcome.next.injEq] at h
    rw [h, List.nil_append]; rfl
  | cons i a ih =>
    simp only [List.cons_append, runCommands, responses] at h ⊢
    cases he : exec i s with
    | next u => rw [he] at h; simp only [ih h, List.append_assoc]
    | fault f => cases f
    | refused r => rw [he] at h; cases h

/-- Every byte survives the `FP.GET` word; the `END` word carries none. -/
@[simp] theorem textByte_textWord (b : Byte) : textByte (textWord b) = some b := by
  revert b; decide

@[simp] theorem textByte_endWord : textByte endWord = none := by decide

theorem textRead_append {a : List Instr} (b : List Instr) {s t : State} (h : runCommands a s = .next t) :
    textRead (a ++ b) s = textRead a s ++ textRead b t := by
  induction a generalizing s with
  | nil =>
    simp only [runCommands_nil, Host.Outcome.next.injEq] at h
    rw [h]; rfl
  | cons i a ih =>
    simp only [List.cons_append, runCommands, textRead] at h ⊢
    cases he : exec i s with
    | next u => rw [he] at h; simp only [ih h, List.append_assoc]
    | fault f => cases f
    | refused r => rw [he] at h; cases h

theorem fpFeed_append (a b : List Byte) : fpFeed (a ++ b) = fpFeed a ++ fpFeed b := by simp [fpFeed]

end Sys2Proof.Machine
end

