-- ==== Sys2Proof/Laws/Parser.lean ====
section
/-! SUPPORT. The parser's functions case by case: what whitespace is, that `trim` sees only the bytes it is given, and
`classify` by the first byte and the state of the frame. -/

namespace Sys2Proof.Machine

theorem mem_ws_of_whitespaceAt {cfg : Config} {s : List Byte} {i : Nat} {b : Byte} (h : whitespaceAt cfg s i = true)
    (hb : s[i]? = some b) : b ∈ cfg.ws := by
  unfold whitespaceAt at h; rw [hb] at h; simpa using h

theorem notMem_ws_of_whitespaceAt {cfg : Config} {s : List Byte} {i : Nat} {b : Byte}
    (h : ¬ whitespaceAt cfg s i = true) (hb : s[i]? = some b) : b ∉ cfg.ws := by
  unfold whitespaceAt at h; rw [hb] at h; simpa using h

theorem whitespaceAt_append (cfg : Config) (s t : List Byte) {i : Nat} (h : i < s.length) :
    whitespaceAt cfg (s ++ t) i = whitespaceAt cfg s i := by
  unfold whitespaceAt; rw [List.getElem?_append_left h]

theorem trimFront_bounds (cfg : Config) (s : List Byte) (n lo : Nat) :
    lo ≤ trimFront cfg s lo n ∧ trimFront cfg s lo n ≤ lo + n := by
  induction n generalizing lo with
  | zero => simp [trimFront]
  | succ n ih =>
    unfold trimFront
    split
    · obtain ⟨h1, h2⟩ := ih (lo + 1); omega
    · omega

theorem trimBack_bounds (cfg : Config) (s : List Byte) (n lo : Nat) :
    lo ≤ trimBack cfg s lo n ∧ trimBack cfg s lo n ≤ lo + n := by
  induction n with
  | zero => simp [trimBack]
  | succ n ih =>
    unfold trimBack
    split <;> omega

theorem trimFront_append (cfg : Config) (s t : List Byte) (n lo : Nat) (h : lo + n ≤ s.length) :
    trimFront cfg (s ++ t) lo n = trimFront cfg s lo n := by
  induction n generalizing lo with
  | zero => rfl
  | succ n ih =>
    simp only [trimFront]
    rw [whitespaceAt_append cfg s t (by omega), ih (lo + 1) (by omega)]

theorem trimBack_append (cfg : Config) (s t : List Byte) (n lo : Nat) (h : lo + n ≤ s.length) :
    trimBack cfg (s ++ t) lo n = trimBack cfg s lo n := by
  induction n with
  | zero => rfl
  | succ n ih =>
    simp only [trimBack]
    rw [whitespaceAt_append cfg s t (by omega), ih (by omega)]

/-- `trim` sees only the bytes below `hi`. -/
theorem trim_append (cfg : Config) (s t : List Byte) {lo hi : Nat} (h1 : lo ≤ hi) (h : hi ≤ s.length) :
    trim cfg (s ++ t) lo hi = trim cfg s lo hi := by
  have := (trimFront_bounds cfg s (hi - lo) lo).2
  unfold trim
  simp only [trimFront_append cfg s t (hi - lo) lo (by omega)]
  rw [trimBack_append cfg s t _ _ (by omega)]

theorem classify_ack (cfg : Config) (t : List Byte) : classify cfg (0x06 :: t) = .ack := by
  simp [classify, ackByte]

theorem classify_nak (cfg : Config) (t : List Byte) : classify cfg (0x15 :: t) = .nak := by
  simp [classify, ackByte, nakByte]

theorem classify_raw (cfg : Config) {a : Byte} (t : List Byte) (h6 : a ≠ 0x06) (h15 : a ≠ 0x15) (h2 : a ≠ 0x02) :
    classify cfg (a :: t) = .pending := by
  unfold classify
  dsimp only
  rw [if_neg (show ¬ a = ackByte from h6), if_neg (show ¬ a = nakByte from h15), if_neg (show ¬ a = stx from h2)]

/-- A frame without ETX. -/
theorem classify_open (cfg : Config) {t : List Byte} (h : firstEtx (0x02 :: t) = none) :
    classify cfg (0x02 :: t) = .pending := by
  unfold classify
  dsimp only
  rw [if_neg (by decide), if_neg (by decide), if_pos (by decide)]
  simp only [h]

/-- A frame with fewer than four bytes after its ETX. -/
theorem classify_short (cfg : Config) {t : List Byte} {e : Nat} (h : firstEtx (0x02 :: t) = some e)
    (hl : (0x02 :: t : List Byte).length < e + 5) : classify cfg (0x02 :: t) = .pending := by
  unfold classify
  dsimp only
  rw [if_neg (by decide), if_neg (by decide), if_pos (by decide)]
  simp only [h]
  rw [if_pos hl]

/-- A complete frame. -/
theorem classify_complete (cfg : Config) {t : List Byte} {e : Nat} (h : firstEtx (0x02 :: t) = some e)
    (hl : ¬ (0x02 :: t : List Byte).length < e + 5) : classify cfg (0x02 :: t) = classifyFrame cfg (0x02 :: t) e := by
  unfold classify
  dsimp only
  rw [if_neg (by decide), if_neg (by decide), if_pos (by decide)]
  simp only [h]
  rw [if_neg hl]

theorem classifyFrame_of_none {cfg : Config} {s : List Byte} {e : Nat} (h : parsehex4 cfg (crcField s e) = none) :
    classifyFrame cfg s e = .crcFormatError := by
  simp [classifyFrame, h]

theorem classifyFrame_of_eq {cfg : Config} {s : List Byte} {e : Nat} {v : Word}
    (h : parsehex4 cfg (crcField s e) = some v) (hc : crc16 (crcCovered s e) = v) :
    classifyFrame cfg s e = .framedText (trim cfg s 1 e).1 (trim cfg s 1 e).2 v v := by
  simp [classifyFrame, h, hc]

theorem classifyFrame_of_ne {cfg : Config} {s : List Byte} {e : Nat} {v : Word}
    (h : parsehex4 cfg (crcField s e) = some v) (hc : crc16 (crcCovered s e) ≠ v) :
    classifyFrame cfg s e = .crcMismatchError v (crc16 (crcCovered s e)) := by
  simp [classifyFrame, h, hc]

/-- `classify` never gives a verdict of the end of the stream. -/
theorem classify_not_eos (cfg : Config) (s : List Byte) :
    (∀ lo hi, classify cfg s ≠ .rawText lo hi) ∧ classify cfg s ≠ .noData := by
  cases s with
  | nil => simp [classify]
  | cons a t =>
    have frame : ∀ e, (∀ lo hi, classifyFrame cfg (a :: t) e ≠ .rawText lo hi) ∧
        classifyFrame cfg (a :: t) e ≠ .noData := by
      intro e
      unfold classifyFrame
      split
      · simp
      · dsimp only; split <;> simp
    unfold classify
    dsimp only
    split
    · simp
    split
    · simp
    split
    · split
      · simp
      · split
        · simp
        · exact frame _
    · simp

end Sys2Proof.Machine
end

