-- ==== Sys2Proof/Laws/PerInstr.lean ====
section
/-! SUPPORT. Statements about every command, one lemma per constructor of `Instr`: a command written down is well
formed and stands for that command again (rules R70, R72, R88). -/

namespace Sys2Proof.Laws.SourceRoundTrip

/-- A command written down is well formed and stands for itself. -/
def Statement (i : Instr) : Prop := i.source.wf = true ∧ i.source.instr = some i

/-- The format-`A` rows: an operand that is a byte passes the checks and is read back. -/
theorem of_format_a {o : Opcode} (h : o.format = .a) (b : Byte) :
    Source.wf ⟨o, some b.toNat⟩ = true ∧ Source.instr ⟨o, some b.toNat⟩ = some (o.instr b) := by
  have hb : b.toNat ≤ 255 := by omega
  have hw : Source.wf ⟨o, some b.toNat⟩ = true := by
    simp [Source.wf, Source.noOperandOnN, Source.operandOnA, Source.operandIsByte, h, hb]
  refine ⟨hw, ?_⟩
  simp [Source.instr, hw]

theorem nop : Statement .nop := by unfold Statement; decide

theorem sysRst : Statement .sysRst := by unfold Statement; decide

theorem sysErr : Statement .sysErr := by unfold Statement; decide

theorem crcClr : Statement .crcClr := by unfold Statement; decide

theorem crcUpd (b : Byte) : Statement (.crcUpd b) := of_format_a (o := .crcUpd) rfl b

theorem crcRd : Statement .crcRd := by unfold Statement; decide

theorem tblRd (b : Byte) : Statement (.tblRd b) := of_format_a (o := .tblRd) rfl b

theorem fbStart : Statement .fbStart := by unfold Statement; decide

theorem fbByte (b : Byte) : Statement (.fbByte b) := of_format_a (o := .fbByte) rfl b

theorem fbEnd : Statement .fbEnd := by unfold Statement; decide

theorem fpRst : Statement .fpRst := by unfold Statement; decide

theorem fpPush (b : Byte) : Statement (.fpPush b) := of_format_a (o := .fpPush) rfl b

theorem fpEos : Statement .fpEos := by unfold Statement; decide

theorem fpStat : Statement .fpStat := by unfold Statement; decide

theorem fpGet : Statement .fpGet := by unfold Statement; decide

theorem fpRxcrc : Statement .fpRxcrc := by unfold Statement; decide

theorem fpCalc : Statement .fpCalc := by unfold Statement; decide

end Sys2Proof.Laws.SourceRoundTrip
end

