-- ==== Sys2Proof/Tests/Slice0.lean ====
section
/-! SUPPORT. The model's own tests. Expected values are the spec's: the rows of R74 and R101, the examples of the command
rules, and the vectors and programs of 95_test_vectors.md (V<n>, P<n>). The theorems named `witness_…` show, for a
statement of `Certificates/Slice0/Obligations.lean`, values that meet its hypotheses, one for each clause. -/

namespace Sys2Proof.Tests

open Sys2Proof Sys2Proof.Machine

/-- The state a meaning answers, if it answers one. -/
def after (a : Answer) : Option State :=
  match a with
  | .next t => some t
  | .fault _ => none
  | .refused _ => none

/-- The response of a meaning. -/
def answer (a : Answer) : Option Word := (after a).bind (fun t => t.resp)

/-- A parser that has received `acc` and is pending. -/
def received (acc : List Byte) : State := { State.reset with acc := acc }

/-- A builder with an open frame, after `bytes` on `TX` and with the checksum `c`. -/
def building (bytes : List Byte) (c : Word) : State := { State.reset with fbSt := .body, tx := bytes, fbCrc := c }

/-- A parser that holds the text `bytes` of a stream that has ended. -/
def holding (bytes : List Byte) : State :=
  { State.reset with acc := bytes, eosf := true, res := .rawText, hi := bytes.length }

/-- The bytes of the reply of V25, "READY" with its checksum. -/
def ready : List Byte := [0x02, 0x52, 0x45, 0x41, 0x44, 0x59, 0x03, 0x39, 0x41, 0x46, 0x41]

/-- The reply of V25 but for its last byte. -/
def readyOpen : List Byte := [0x02, 0x52, 0x45, 0x41, 0x44, 0x59, 0x03, 0x39, 0x41, 0x46]

/-- A capacity of `m` bytes. -/
def bounded (m : Nat) : Config := { Config.standard with accMax := some m }

/-- R7 with `HEX_LOWER_OK = false`. -/
def strict : Config := { Config.standard with hexLowerOk := false }

/-! ### WellFormed: each check refuses an ill-formed command -/

theorem test_wf_operand_on_format_n : (Source.mk .nop (some 0)).wf = false := by decide
theorem test_wf_format_a_without_operand : (Source.mk .crcUpd none).wf = false := by decide
theorem test_wf_operand_above_a_byte : (Source.mk .tblRd (some 256)).wf = false := by decide
theorem test_wf_largest_operand : (Source.mk .fpPush (some 255)).wf = true := by decide

/-! ### Decode: a word of every row of R74, written out bit by bit, opcode then operand -/

theorem test_decode_system :
    decode 0b0000000000000000 = .ok .nop ∧ decode 0b0000000100000000 = .ok .sysRst ∧
    decode 0b0000001000000000 = .ok .sysErr := by decide

theorem test_decode_crc_engine :
    decode 0b0001000000000000 = .ok .crcClr ∧ decode 0b0001000101010011 = .ok (.crcUpd 0x53) ∧
    decode 0b0001001000000000 = .ok .crcRd ∧ decode 0b0001001110000001 = .ok (.tblRd 0x81) := by decide

theorem test_decode_builder :
    decode 0b0010000000000000 = .ok .fbStart ∧ decode 0b0010000100000011 = .ok (.fbByte 0x03) ∧
    decode 0b0010001000000000 = .ok .fbEnd := by decide

theorem test_decode_parser :
    decode 0b0011000000000000 = .ok .fpRst ∧ decode 0b0011000111100110 = .ok (.fpPush 0xE6) ∧
    decode 0b0011001000000000 = .ok .fpEos ∧ decode 0b0011001100000000 = .ok .fpStat ∧
    decode 0b0011010000000000 = .ok .fpGet ∧ decode 0b0011010100000000 = .ok .fpRxcrc ∧
    decode 0b0011011000000000 = .ok .fpCalc := by decide

/-- R75's ranges of unknown opcodes at their ends, and its two examples of a non-zero low byte. -/
theorem test_decode_reserved :
    [0x0300, 0x0F00, 0x1400, 0x1F00, 0x2300, 0x2F00, 0x3700, 0xFF00, 0x1001, 0x3301].map
      (fun w => (decodeTableWord 16 w).isNone) = List.replicate 10 true := by decide

theorem test_encode : encode (.crcUpd 0x53) = 0x1153 ∧ encode .fpEos = 0x3200 := by decide

/-- A row's bits above the given ones are 0. -/
theorem test_table_word : decodeTableWord 8 0x1153 = none ∧ decodeTableWord 16 0x1153 = some (.crcUpd 0x53) := by decide

/-! ### The pure functions -/

/-- R101: rows `T[0x00..]` to `T[..0x3F]`, as printed. -/
theorem test_table_00 : (List.range 64).map (fun n => tableEntry (BitVec.ofNat 8 (0x00 + n))) =
    [0x0000, 0x1021, 0x2042, 0x3063, 0x4084, 0x50A5, 0x60C6, 0x70E7] ++
    [0x8108, 0x9129, 0xA14A, 0xB16B, 0xC18C, 0xD1AD, 0xE1CE, 0xF1EF] ++
    [0x1231, 0x0210, 0x3273, 0x2252, 0x52B5, 0x4294, 0x72F7, 0x62D6] ++
    [0x9339, 0x8318, 0xB37B, 0xA35A, 0xD3BD, 0xC39C, 0xF3FF, 0xE3DE] ++
    [0x2462, 0x3443, 0x0420, 0x1401, 0x64E6, 0x74C7, 0x44A4, 0x5485] ++
    [0xA56A, 0xB54B, 0x8528, 0x9509, 0xE5EE, 0xF5CF, 0xC5AC, 0xD58D] ++
    [0x3653, 0x2672, 0x1611, 0x0630, 0x76D7, 0x66F6, 0x5695, 0x46B4] ++
    [0xB75B, 0xA77A, 0x9719, 0x8738, 0xF7DF, 0xE7FE, 0xD79D, 0xC7BC] := by
  decide +kernel

/-- R101: rows `T[0x40..]` to `T[..0x7F]`, as printed. -/
theorem test_table_40 : (List.range 64).map (fun n => tableEntry (BitVec.ofNat 8 (0x40 + n))) =
    [0x48C4, 0x58E5, 0x6886, 0x78A7, 0x0840, 0x1861, 0x2802, 0x3823] ++
    [0xC9CC, 0xD9ED, 0xE98E, 0xF9AF, 0x8948, 0x9969, 0xA90A, 0xB92B] ++
    [0x5AF5, 0x4AD4, 0x7AB7, 0x6A96, 0x1A71, 0x0A50, 0x3A33, 0x2A12] ++
    [0xDBFD, 0xCBDC, 0xFBBF, 0xEB9E, 0x9B79, 0x8B58, 0xBB3B, 0xAB1A] ++
    [0x6CA6, 0x7C87, 0x4CE4, 0x5CC5, 0x2C22, 0x3C03, 0x0C60, 0x1C41] ++
    [0xEDAE, 0xFD8F, 0xCDEC, 0xDDCD, 0xAD2A, 0xBD0B, 0x8D68, 0x9D49] ++
    [0x7E97, 0x6EB6, 0x5ED5, 0x4EF4, 0x3E13, 0x2E32, 0x1E51, 0x0E70] ++
    [0xFF9F, 0xEFBE, 0xDFDD, 0xCFFC, 0xBF1B, 0xAF3A, 0x9F59, 0x8F78] := by
  decide +kernel

/-- R101: rows `T[0x80..]` to `T[..0xBF]`, as printed. -/
theorem test_table_80 : (List.range 64).map (fun n => tableEntry (BitVec.ofNat 8 (0x80 + n))) =
    [0x9188, 0x81A9, 0xB1CA, 0xA1EB, 0xD10C, 0xC12D, 0xF14E, 0xE16F] ++
    [0x1080, 0x00A1, 0x30C2, 0x20E3, 0x5004, 0x4025, 0x7046, 0x6067] ++
    [0x83B9, 0x9398, 0xA3FB, 0xB3DA, 0xC33D, 0xD31C, 0xE37F, 0xF35E] ++
    [0x02B1, 0x1290, 0x22F3, 0x32D2, 0x4235, 0x5214, 0x6277, 0x7256] ++
    [0xB5EA, 0xA5CB, 0x95A8, 0x8589, 0xF56E, 0xE54F, 0xD52C, 0xC50D] ++
    [0x34E2, 0x24C3, 0x14A0, 0x0481, 0x7466, 0x6447, 0x5424, 0x4405] ++
    [0xA7DB, 0xB7FA, 0x8799, 0x97B8, 0xE75F, 0xF77E, 0xC71D, 0xD73C] ++
    [0x26D3, 0x36F2, 0x0691, 0x16B0, 0x6657, 0x7676, 0x4615, 0x5634] := by
  decide +kernel

/-- R101: rows `T[0xC0..]` to `T[..0xFF]`, as printed. -/
theorem test_table_c0 : (List.range 64).map (fun n => tableEntry (BitVec.ofNat 8 (0xC0 + n))) =
    [0xD94C, 0xC96D, 0xF90E, 0xE92F, 0x99C8, 0x89E9, 0xB98A, 0xA9AB] ++
    [0x5844, 0x4865, 0x7806, 0x6827, 0x18C0, 0x08E1, 0x3882, 0x28A3] ++
    [0xCB7D, 0xDB5C, 0xEB3F, 0xFB1E, 0x8BF9, 0x9BD8, 0xABBB, 0xBB9A] ++
    [0x4A75, 0x5A54, 0x6A37, 0x7A16, 0x0AF1, 0x1AD0, 0x2AB3, 0x3A92] ++
    [0xFD2E, 0xED0F, 0xDD6C, 0xCD4D, 0xBDAA, 0xAD8B, 0x9DE8, 0x8DC9] ++
    [0x7C26, 0x6C07, 0x5C64, 0x4C45, 0x3CA2, 0x2C83, 0x1CE0, 0x0CC1] ++
    [0xEF1F, 0xFF3E, 0xCF5D, 0xDF7C, 0xAF9B, 0xBFBA, 0x8FD9, 0x9FF8] ++
    [0x6E17, 0x7E36, 0x4E55, 0x5E74, 0x2E93, 0x3EB2, 0x0ED1, 0x1EF0] := by
  decide +kernel

/-- V1 to V11, V13b. -/
theorem test_crc16 :
    crc16 [] = 0x0000 ∧ crc16 [0x31, 0x32, 0x33, 0x34, 0x35, 0x36, 0x37, 0x38, 0x39] = 0x29B1 ∧
    crc16 [0x00] = 0xE1F0 ∧ crc16 [0x03] = 0xD193 ∧ crc16 [0xFF] = 0xFF00 ∧ crc16 [0x41] = 0xB915 ∧
    crc16 [0xFF, 0xFF] = 0x0000 ∧ crc16 [0x7B, 0x30] = 0xFFFF ∧ crc16 [0x53, 0x54, 0x03] = 0x391A ∧
    crc16 [0x52, 0x45, 0x41, 0x44, 0x59, 0x03] = 0x9AFA ∧ crc16 [0x00, 0x00] = 0x1D0F ∧
    crc16 [0x20, 0x20, 0x03] = 0x7CDF := by decide +kernel

/-- V12. -/
theorem test_upd :
    upd 0xFFFF 0x00 = 0xE1F0 ∧ upd 0x0000 0x00 = 0x0000 ∧ upd 0x0000 0x01 = 0x1021 ∧ upd 0x1234 0x56 = 0x3C40 ∧
    upd 0xFF00 0xFF = 0x0000 ∧ upd 0x8000 0x80 = 0x0000 ∧ updBitSerial 0x1234 0x56 = 0x3C40 := by decide +kernel

/-- V14. -/
theorem test_hex4 :
    hex4 0x0000 = [0x30, 0x30, 0x30, 0x30] ∧ hex4 0xFFFF = [0x46, 0x46, 0x46, 0x46] ∧
    hex4 0x00BD = [0x30, 0x30, 0x42, 0x44] ∧ hex4 0x391A = [0x33, 0x39, 0x31, 0x41] ∧
    hex4 0x0A0B = [0x30, 0x41, 0x30, 0x42] := by decide

/-- V15, V16. -/
theorem test_parsehex4_accepts :
    parsehex4 strict [0x39, 0x41, 0x46, 0x41] = some 0x9AFA ∧ parsehex4 strict [0x30, 0x30, 0x42, 0x44] = some 0x00BD ∧
    parsehex4 Config.standard [0x61, 0x42, 0x63, 0x44] = some 0xABCD ∧
    parsehex4 strict [0x61, 0x42, 0x63, 0x44] = none := by decide

/-- V17: the bytes next to the accepted ranges, and a space. -/
theorem test_parsehex4_refuses :
    [0x2F, 0x3A, 0x40, 0x47, 0x60, 0x67, 0x20].map (fun b => parsehex4 Config.standard [b, 0x30, 0x30, 0x30]) =
      List.replicate 7 none := by decide

/-- V19, V21a: the frames of "ST" and of a body that contains ETX. -/
theorem test_build :
    build [0x53, 0x54] = [0x02, 0x53, 0x54, 0x03, 0x33, 0x39, 0x31, 0x41] ∧
    build [0x41, 0x03, 0x42] = [0x02, 0x41, 0x03, 0x42, 0x03, 0x39, 0x45, 0x37, 0x35] := by decide +kernel

/-- V25, V27, V31, V31a. -/
theorem test_classify_frames :
    classify Config.standard ready = .framedText 1 6 0x9AFA 0x9AFA ∧
    classify Config.standard (readyOpen ++ [0x47]) = .crcFormatError ∧
    classify Config.standard [0x02, 0x20, 0x41, 0x20, 0x03, 0x41, 0x46, 0x39, 0x36] = .framedText 2 3 0xAF96 0xAF96 ∧
    classify Config.standard [0x02, 0x20, 0x20, 0x03, 0x37, 0x43, 0x44, 0x46] = .framedText 3 3 0x7CDF 0x7CDF := by
  decide +kernel

/-- V33, V34: a flipped bit that makes an ETX, refused by its field, and accepted as a shorter text. -/
theorem test_classify_early_etx :
    classify Config.standard [0x02, 0x41, 0x42, 0x03, 0x44, 0x03, 0x39, 0x43, 0x35, 0x37] = .crcFormatError ∧
    classify Config.standard [0x02, 0x41, 0x03, 0x31, 0x33, 0x39, 0x31, 0x03, 0x37, 0x43, 0x43, 0x41] =
      .framedText 1 2 0x1391 0x1391 := by decide +kernel

/-- V37, V37a, V36. -/
theorem test_classify_eos :
    classifyEos Config.standard [0x20, 0x4F, 0x4B, 0x0D, 0x0A] = .rawText 1 3 ∧
    classifyEos Config.standard [0x20, 0x0D, 0x0A] = .rawText 3 3 ∧ classifyEos Config.standard [] = .noData := by decide

/-- R88's example, and its three forms of an operand. -/
theorem test_assembler :
    assembleLine "CRC.UPD 'S'".toList = .ok (some (.crcUpd 0x53)) ∧
    assembleLine "CRC.UPD 0x53 ; S".toList = .ok (some (.crcUpd 0x53)) ∧
    assembleLine "CRC.UPD 83".toList = .ok (some (.crcUpd 0x53)) ∧ assembleLine "; nothing".toList = .ok none ∧
    assembleLine "CRC.UPD 256".toList = .error .illFormed := by decide +kernel

/-- The status words of V22 to V27, V35, V36 and V40, one for each code of R29. -/
theorem test_status_words :
    [ResultCode.pending, .ack, .nak, .framedText, .crcFormatError, .crcMismatchError, .overflow].map
      (fun r => { State.reset with res := r }.statw false) = [0x0000, 0x0001, 0x0002, 0x0003, 0x0005, 0x0006, 0x0008] ∧
    [ResultCode.rawText, .noData].map (fun r => { State.reset with res := r, eosf := true }.statw false) =
      [0x0014, 0x0017] := by decide

/-! ### One step of each command -/

theorem test_nop : answer (step (State.reset.withFetchWord 16 0x0000)) = some 0x0000 := by decide

/-- R201: an open frame is abandoned and its bytes stay on `TX`. -/
theorem test_sysRst :
    (after (exec .sysRst { building [0x02, 0x53] 0x8B66 with err := 0b011 })).map (fun t => (t.fbSt, t.tx, t.err, t.fbCrc))
      = some (.idle, [0x02, 0x53], 0b000, 0xFFFF) := by decide

theorem test_sysErr : answer (exec .sysErr { State.reset with err := 0b101 }) = some 0x0005 := by decide

theorem test_crcClr :
    (after (exec .crcClr { State.reset with crc := 0x8B66, ne := true, fbCrc := 0x1234 })).map (fun t => (t.crc, t.ne, t.fbCrc))
      = some (0xFFFF, false, 0x1234) := by decide

/-- R107's example. -/
theorem test_crcUpd : (after (exec (.crcUpd 0x53) State.reset)).map (fun t => (t.crc, t.ne)) = some (0x8B66, true) := by
  decide +kernel

/-- R108: nothing absorbed reads `0x0000`, not `0xFFFF`. -/
theorem test_crcRd_empty : answer (exec .crcRd State.reset) = some 0x0000 := by decide
theorem test_crcRd : answer (exec .crcRd { State.reset with crc := 0xFF00, ne := true }) = some 0xFF00 := by decide

/-- V13. -/
theorem test_tblRd : answer (exec (.tblRd 0xAC) State.reset) = some 0x7466 ∧
    answer (exec (.tblRd 0xFF) State.reset) = some 0x1EF0 := by decide +kernel

/-- R131's example. -/
theorem test_fbStart : (after (exec .fbStart State.reset)).map (fun t => (t.tx, t.fbSt)) = some ([0x02], .body) := by decide

/-- V47: a second `FB.START` emits nothing. -/
theorem test_fbStart_in_body :
    (after (exec .fbStart (building [0x02] 0xFFFF))).map (fun t => (t.tx, t.err, t.resp)) =
      some ([0x02], 0b010, some 0xFFFF) := by decide

/-- R132's example. -/
theorem test_fbByte :
    (after (exec (.fbByte 0x53) (building [0x02] 0xFFFF))).map (fun t => (t.tx, t.fbCrc, t.resp)) =
      some ([0x02, 0x53], 0x8B66, some 0x0000) := by decide +kernel

/-- V43. -/
theorem test_fbByte_idle :
    (after (exec (.fbByte 0x00) State.reset)).map (fun t => (t.tx, t.err, t.resp)) = some ([], 0b010, some 0xFFFF) := by decide

/-- R133's example: "ST". -/
theorem test_fbEnd :
    (after (exec .fbEnd (building [0x02, 0x53, 0x54] 0x5C92))).map (fun t => (t.tx, t.fbCrc, t.fbSt, t.resp)) =
      some ([0x02, 0x53, 0x54, 0x03, 0x33, 0x39, 0x31, 0x41], 0x391A, .idle, some 0x391A) := by decide +kernel

/-- V49. -/
theorem test_fbEnd_idle :
    (after (exec .fbEnd State.reset)).map (fun t => (t.tx, t.err, t.resp)) = some ([], 0b010, some 0xFFFF) := by decide

/-- R156: `ERR.OVF` stays. -/
theorem test_fpRst :
    (after (exec .fpRst { received [0x41] with res := .overflow, err := 0b100 })).map (fun t => (t.acc, t.res, t.err)) =
      some ([], .pending, 0b100) := by decide

/-- R157's example: the last byte. -/
theorem test_fpPush :
    (after (exec (.fpPush 0x41) (received readyOpen))).map (fun t => (t.resp, t.lo, t.hi, t.rp, t.rxcrc, t.calcCrc)) =
      some (some 0x0003, 1, 6, 1, 0x9AFA, 0x9AFA) := by decide +kernel

/-- V40: the third byte for an accumulator of two. -/
theorem test_fpPush_overflow :
    (after (exec (.fpPush 0x43) { received [0x41, 0x42] with cfg := bounded 2 })).map (fun t => (t.resp, t.res, t.acc, t.err)) =
      some (some 0x0108, .overflow, [0x41, 0x42], 0b100) := by decide

/-- V35. -/
theorem test_fpEos :
    (after (exec .fpEos (received [0x02, 0x41, 0x42]))).map (fun t => (t.resp, t.lo, t.hi, t.rp)) =
      some (some 0x0014, 0, 3, 0) := by decide

/-- V36. -/
theorem test_fpEos_no_data : answer (exec .fpEos State.reset) = some 0x0017 := by decide

/-- V36. -/
theorem test_fpStat : answer (exec .fpStat { State.reset with res := .noData, eosf := true }) = some 0x0017 := by decide

/-- R160: a text byte `0x00` is not the end. -/
theorem test_fpGet :
    (after (exec .fpGet (holding [0x00]))).map (fun t => (t.resp, t.rp)) = some (some 0x0000, 1) := by decide

theorem test_fpGet_end :
    (after (exec .fpGet { holding [0x00] with rp := 1 })).map (fun t => (t.resp, t.rp)) = some (some 0x0100, 1) := by decide

/-- V26: the two checksums of a mismatch. -/
theorem test_fpRxcrc : answer (exec .fpRxcrc { State.reset with rxcrc := 0x9AFB, calcCrc := 0x9AFA }) = some 0x9AFB := by decide
theorem test_fpCalc : answer (exec .fpCalc { State.reset with rxcrc := 0x9AFB, calcCrc := 0x9AFA }) = some 0x9AFA := by decide

/-- V44, V45. -/
theorem test_reserved :
    (after (step (State.reset.withFetchWord 16 0x4000))).map (fun t => (t.resp, t.err)) = some (some 0xFFFF, 0b001) ∧
    (after (step (State.reset.withFetchWord 16 0x1001))).map (fun t => (t.resp, t.err, t.crc)) =
      some (some 0xFFFF, 0b001, 0xFFFF) := by decide

/-! ### Hypotheses of the statements can be met -/

theorem witness_NopReturnsZeroAndChangesNothing : (0x01 : Byte) ≠ 0 ∧ (0xFF : Byte) ≠ 0 := by decide

/-- A command that sets a bit, and one that sets none. -/
theorem witness_SysRstIsResetButForTx :
    (Instr.fbEnd ≠ .sysRst ∧ ∃ t, exec .fbEnd State.reset = .next t ∧ t.err = 0b010) ∧
    (Instr.crcClr ≠ .sysRst ∧ ∃ t, exec .crcClr State.reset = .next t ∧ t.err = 0b000) :=
  ⟨⟨by decide, _, rfl, rfl⟩, by decide, _, rfl, rfl⟩

theorem witness_CrcRdReturnsTheChecksum :
    ({ State.reset with crc := 0x0000, ne := true } : State).ne = true ∧ State.reset.ne = false := by decide

theorem witness_CrcOfSequence : ([0x00] : List Byte) ≠ [] := by decide

theorem witness_SingleBitChangeChangesCrc : 0 < 8 ∧ 7 < 8 := by decide

theorem witness_FbCommands :
    State.reset.fbSt = .idle ∧ (building [0x02] 0xFFFF).fbSt = .body := by decide

/-- `SYS.RST` on an open frame: the builder is idle, and no `FB.END` was issued (R248). -/
theorem witness_FbBuild_abandoned :
    Instr.fbEnd ∉ [Instr.fbStart, .sysRst] ∧ (∃ t, runCommands [.fbStart, .sysRst] State.reset = .next t ∧ t.fbSt = .idle) :=
  ⟨by decide, _, rfl, rfl⟩

theorem witness_FbBuildAppendsTheFrame : ({ State.reset with tx := [0x02], crc := 0x0000, ne := true } : State).fbSt = .idle := by
  decide

/-- Each range of `hexval` at both ends, and the two settings of `HEX_LOWER_OK`. -/
theorem witness_HexFieldIsPositional :
    [0x30, 0x39, 0x41, 0x46, 0x61, 0x66, 0x2F, 0x67].map (hexval Config.standard) =
      [some 0, some 9, some 10, some 15, some 10, some 15, none, none] ∧ hexval strict 0x61 = none := by decide

theorem witness_FirstEtxIsTheLeastOffset :
    firstEtx [0x02, 0x03] = some 1 ∧ firstEtx [0x02, 0x41, 0x03, 0x03] = some 2 ∧ firstEtx [0x03] = none ∧
    firstEtx [] = none := by decide

/-- An empty window, a window at the end of the sequence, one that is all whitespace, one with text. -/
theorem witness_TrimDropsExactlyTheSurroundingWhitespace :
    (0 ≤ 0 ∧ 0 ≤ ([] : List Byte).length ∧ trim Config.standard [] 0 0 = (0, 0)) ∧
    (1 ≤ 1 ∧ 1 ≤ ([0x20] : List Byte).length ∧ trim Config.standard [0x20] 1 1 = (1, 1)) ∧
    (0 ≤ 2 ∧ 2 ≤ ([0x20, 0x09] : List Byte).length ∧ trim Config.standard [0x20, 0x09] 0 2 = (2, 2)) ∧
    (0 ≤ 4 ∧ 4 ≤ ([0x20, 0x41, 0x20, 0x0A] : List Byte).length ∧
      trim Config.standard [0x20, 0x41, 0x20, 0x0A] 0 4 = (1, 2)) := by decide

/-- Every verdict of `classify`, the frame one byte short and complete. -/
theorem witness_ClassifyDecidesEveryAccumulator :
    classify Config.standard [0x06] = .ack ∧ classify Config.standard [0x15, 0x41] = .nak ∧
    classify Config.standard [] = .pending ∧ classify Config.standard [0x41, 0x06] = .pending ∧
    classify Config.standard [0x02, 0x03, 0x44, 0x31, 0x39] = .pending ∧
    classify Config.standard [0x02, 0x03, 0x44, 0x31, 0x39, 0x33] = .framedText 1 1 0xD193 0xD193 ∧
    classify Config.standard [0x02, 0x03, 0x44, 0x31, 0x39, 0x34] = .crcMismatchError 0xD194 0xD193 ∧
    classify Config.standard [0x02, 0x03, 0x44, 0x31, 0x39, 0x47] = .crcFormatError := by decide +kernel

theorem witness_ClassifyAtEndOfStream :
    ([] : List Byte) = [] ∧ ([0x20] : List Byte) ≠ [] ∧ trim Config.standard [0x20] 0 1 = (1, 1) := by decide

theorem witness_VerdictIsStableUnderMoreBytes :
    classify Config.standard [0x06] ≠ .pending ∧ classify Config.standard ready ≠ .pending ∧ firstEtx [0x02, 0x03] = some 1 := by
  decide +kernel

/-- `FP.PUSH`: after a verdict; on a full accumulator, `ACC_MAX = 0` among them (R157 (f)); with room, to the last
byte. -/
theorem witness_FpPushDeliversOneByte :
    ({ received [0x06] with res := .ack } : State).res ≠ .pending ∧
    (let s : State := { State.reset with cfg := bounded 0 }
     s.res = .pending ∧ s.cfg.accMax = some s.acc.length) ∧
    (let s : State := { received [0x41, 0x42] with cfg := bounded 2 }
     s.res = .pending ∧ s.cfg.accMax = some s.acc.length) ∧
    (let s : State := { received [0x41] with cfg := bounded 2 }
     s.res = .pending ∧ s.cfg.accMax ≠ some s.acc.length) := by decide

/-- `FP.PUSH` with room: the six outcomes. -/
theorem witness_FpPush_verdicts :
    classify Config.standard ([] ++ [0x41]) = .pending ∧ classify Config.standard ([] ++ [0x06]) = .ack ∧
    classify Config.standard ([] ++ [0x15]) = .nak ∧ classify Config.standard (readyOpen ++ [0x47]) = .crcFormatError ∧
    classify Config.standard (readyOpen ++ [0x42]) = .crcMismatchError 0x9AFB 0x9AFA ∧
    classify Config.standard (readyOpen ++ [0x41]) = .framedText 1 6 0x9AFA 0x9AFA := by decide +kernel

theorem witness_FpEosEndsTheStream :
    (holding [0x41]).res ≠ .pending ∧ (State.reset.res = .pending ∧ State.reset.acc = []) ∧
    ((received [0x20]).res = .pending ∧ (received [0x20]).acc ≠ [] ∧
      trim Config.standard (received [0x20]).acc 0 1 = (1, 1)) := by decide

/-- `FP.GET`: the last byte of a text; the end of one. -/
theorem witness_FpGetReturnsTheNextTextByte :
    ((holding [0x41]).rp < (holding [0x41]).hi ∧ (holding [0x41]).acc[(holding [0x41]).rp]? = some 0x41) ∧
    (¬ State.reset.rp < State.reset.hi) := by decide

/-- A text with bytes left, and one read to its end. -/
theorem witness_DrainReturnsTheRestOfTheText :
    ((holding [0x41, 0x42]).rp ≤ (holding [0x41, 0x42]).hi ∧ (holding [0x41, 0x42]).hi ≤ (holding [0x41, 0x42]).acc.length) ∧
    (State.reset.rp ≤ State.reset.hi ∧ State.reset.hi ≤ State.reset.acc.length) := by decide

/-- What the rows of R163 share: a pending parser with room, on which `FP.PUSH` answers. -/
theorem witness_ParserTransitions (acc : List Byte) (b : Byte) :
    (received acc).res = .pending ∧ (received acc).cfg.accMax ≠ some acc.length ∧
      ∃ t, exec (.fpPush b) (received acc) = .next t :=
  ⟨rfl, by simp [received, State.reset, State.initial, Config.standard], _, rfl⟩

/-- The rows of the end of the stream: nothing received, and something. -/
theorem witness_ParserTransitions_eos :
    ((received []).res = .pending ∧ (received []).acc = [] ∧ ∃ t, exec .fpEos (received []) = .next t) ∧
    ((received [0x02]).res = .pending ∧ (received [0x02]).acc ≠ [] ∧ ∃ t, exec .fpEos (received [0x02]) = .next t) :=
  ⟨⟨rfl, rfl, _, rfl⟩, rfl, by decide, _, rfl⟩

/-- The rows themselves: nothing received; a frame with and without ETX, its field empty, at two of four, at three of
four; a raw reply. -/
theorem witness_ParserTransitions_rows :
    (received []).acc = [] ∧
    ((received [0x02]).acc[0]? = some 0x02 ∧ firstEtx (received [0x02]).acc = none) ∧
    ((received [0x02, 0x03]).acc[0]? = some 0x02 ∧ firstEtx (received [0x02, 0x03]).acc = some 1 ∧
      (received [0x02, 0x03]).acc.length = 1 + 1 + 0) ∧
    ((received [0x02, 0x03, 0x44, 0x31]).acc[0]? = some 0x02 ∧ firstEtx (received [0x02, 0x03, 0x44, 0x31]).acc = some 1 ∧
      (received [0x02, 0x03, 0x44, 0x31]).acc.length = 1 + 1 + 2 ∧ 2 < 3) ∧
    ((received readyOpen).acc[0]? = some 0x02 ∧ firstEtx (received readyOpen).acc = some 6 ∧
      (received readyOpen).acc.length = 6 + 1 + 3) ∧
    ((received [0x41]).acc[0]? = some 0x41 ∧ (0x41 : Byte) ≠ 0x02 ∧ (0x41 : Byte) ≠ 0x06 ∧ (0x41 : Byte) ≠ 0x15) := by decide

theorem witness_VerdictIsNeverReplaced :
    (holding [0x41]).res ≠ .pending ∧ (∃ t, exec .fpGet (holding [0x41]) = .next t) ∧
      (∃ t, exec (.fpPush 0x06) (holding [0x41]) = .next t) ∧ Instr.fpGet ≠ .fpRst ∧ Instr.fpGet ≠ .sysRst :=
  ⟨by decide, ⟨_, rfl⟩, ⟨_, rfl⟩, by decide, by decide⟩

/-- The least capacity that takes a control byte. -/
theorem witness_ControlByteDecidesAlone :
    ({ State.reset with cfg := bounded 1 } : State).cfg.accMax ≠ some 0 ∧ State.reset.cfg.accMax ≠ some 0 := by decide

/-- The stream of V32 in three chunks, for an accumulator it just fills. -/
theorem witness_FragmentationLosesNothing :
    ∀ m, (bounded 11).accMax = some m →
      ([[0x02, 0x52], [0x45, 0x41, 0x44, 0x59, 0x03, 0x39], [0x41, 0x46, 0x41]] : List (List Byte)).flatten.length ≤ m := by
  intro m h
  cases h
  decide

/-- A raw reply, with a builder's command in between; its one text byte is read. -/
theorem witness_HostDuties_pending :
    FollowsHostDuties State.reset [[0x41], []].flatten [.fpRst, .fbStart, .fpPush 0x41, .fpEos, .fpGet] :=
  ⟨[.fpRst], [.fpEos], [0x41], [], 1, .inl rfl, by decide, .inl (by decide), by decide, by decide⟩

/-- P6: "no `FP.RST` needed right after reset"; a byte after the verdict is kept back. -/
theorem witness_HostDuties_after_reset :
    FollowsHostDuties State.reset [[0x06], [0x41]].flatten [.fpPush 0x06, .fpStat] :=
  ⟨[], [], [0x06], [0x41], 0, .inr (.inr ⟨rfl, rfl, rfl, rfl, rfl, rfl, rfl, rfl, rfl⟩), by decide, .inr (by decide), by decide, by decide⟩

/-- A stream that is empty, after `SYS.RST`. -/
theorem witness_HostDuties_no_data : FollowsHostDuties (holding [0x41]) [].flatten [.sysRst, .nop, .fpEos] :=
  ⟨[.sysRst], [.fpEos], [], [], 0, .inr (.inl rfl), by decide, .inl (by decide), by decide, by decide⟩

/-- The text left unread breaks duty (e). -/
theorem test_host_must_read : ¬ FollowsHostDuties State.reset [0x41] [.fpRst, .fpPush 0x41, .fpEos] := by
  rintro ⟨clear, ends, taken, left, reads, -, -, -, hreads, hcommands⟩
  have one : 1 ≤ reads := hreads
  have hget : Instr.fpGet ∈ List.filter (fun i => !issuableAnyTime i) [.fpRst, .fpPush 0x41, .fpEos] := by
    rw [hcommands]
    exact List.mem_append_right _ (List.mem_replicate.2 ⟨by omega, rfl⟩)
  revert hget
  decide

/-- Two replies, the second after `FP.RST`. -/
theorem witness_HostDuties_two_replies :
    FollowsHostDutiesForAll State.reset ([[[0x41]], [[0x15]]].map List.flatten)
      [.fpPush 0x41, .fpEos, .fpGet, .fpRst, .fpPush 0x15, .nop] ∧
    ∀ chunks ∈ ([[[0x41]], [[0x15]]] : List (List (List Byte))), ∀ m, State.reset.cfg.accMax = some m →
      chunks.flatten.length ≤ m := by
  refine ⟨⟨[.fpPush 0x41, .fpEos, .fpGet], [.fpRst, .fpPush 0x15, .nop],
    { holding [0x41] with rp := 1, resp := some 0x0041 }, rfl, ?_, rfl,
    [.fpRst, .fpPush 0x15], [.nop], { received [0x15] with res := .nak, resp := some 0x0002 }, rfl, ?_, rfl,
    show ∀ i ∈ [Instr.nop], issuableAnyTime i = true by decide⟩, ?_⟩
  · exact ⟨[], [.fpEos], [0x41], [], 1, .inr (.inr ⟨rfl, rfl, rfl, rfl, rfl, rfl, rfl, rfl, rfl⟩), by decide, .inl (by decide), by decide, by decide⟩
  · exact ⟨[.fpRst], [], [0x15], [], 0, .inl rfl, by decide, .inr (by decide), by decide, by decide⟩
  · intro chunks _ m h
    cases h

/-- "A" and the empty body, each with the least capacity its frame fits. -/
theorem witness_BuiltFrameIsReadBack :
    ((0x03 : Byte) ∉ ([0x41] : List Byte) ∧ ∀ m, (bounded 7).accMax = some m → ([0x41] : List Byte).length + 6 ≤ m) ∧
    ((0x03 : Byte) ∉ ([] : List Byte) ∧ ∀ m, (bounded 6).accMax = some m → ([] : List Byte).length + 6 ≤ m) := by
  refine ⟨⟨by decide, ?_⟩, by decide, ?_⟩ <;> intro m h <;> cases h <;> decide

/-- The lowest and the highest bit of the body "A". -/
theorem witness_PayloadBitFlipIsDetected :
    (0 < 8 ∧ (0x03 : Byte) ∉ ([] ++ [0x41] ++ [] : List Byte) ∧ (0x41 : Byte) ^^^ BitVec.twoPow 8 0 ≠ 0x03) ∧
    (7 < 8 ∧ (0x03 : Byte) ∉ ([] ++ [0x41] ++ [] : List Byte) ∧ (0x41 : Byte) ^^^ BitVec.twoPow 8 7 ≠ 0x03) ∧
    ∀ m, (bounded 7).accMax = some m → ([] : List Byte).length + ([] : List Byte).length + 7 ≤ m := by
  refine ⟨by decide, by decide, ?_⟩
  intro m h
  cases h
  decide

/-- The empty body with a field that does not parse, and with one that parses to another value. -/
theorem witness_CorruptedFieldIsDetected :
    (0x03 : Byte) ∉ ([] : List Byte) ∧ ([0x44, 0x31, 0x39, 0x47] : List Byte).length = 4 ∧
    parsehex4 Config.standard [0x44, 0x31, 0x39, 0x47] = none ∧
    parsehex4 Config.standard [0x44, 0x31, 0x39, 0x34] = some 0xD194 ∧ (0xD194 : Word) ≠ crc16 ([] ++ [0x03]) ∧
    ∀ m, Config.standard.accMax = some m → ([] : List Byte).length + 6 ≤ m := by
  refine ⟨by decide, by decide, by decide, by decide, by decide +kernel, ?_⟩
  intro m h
  cases h

/-- Each cause of an error bit, a word that is reserved, and the two resets. -/
theorem witness_ErrBitsAreSticky :
    (∃ t, exec .fbStart (building [0x02] 0xFFFF) = .next t) ∧ (∃ t, exec .fbEnd State.reset = .next t) ∧
    (∃ t, exec (.fpPush 0x41) { State.reset with cfg := bounded 0 } = .next t) ∧
    (∃ t, step { State.reset with inbox := [.command 0x4000] } = .next t ∧
      decode 0x4000 = .error (.unknownOpcode 0x40)) ∧
    (∃ t, exec .sysRst State.reset = .next t) ∧ ∃ t, step { State.reset with inbox := [.hardwareReset] } = .next t :=
  ⟨⟨_, rfl⟩, ⟨_, rfl⟩, ⟨_, rfl⟩, ⟨_, rfl, by decide⟩, ⟨_, rfl⟩, ⟨_, rfl⟩⟩

/-- A parser's command and the two other units. -/
theorem witness_CommandsWriteOnlyTheirUnit :
    (∃ t, exec (.fpPush 0x06) State.reset = .next t) ∧ Instr.fpPush 0x06 ≠ .sysRst ∧
    BlockUnit.crcEngine ≠ .system ∧ BlockUnit.crcEngine ≠ unitOf (.fpPush 0x06) ∧
    BlockUnit.builder ≠ unitOf (.fpPush 0x06) :=
  ⟨⟨_, rfl⟩, by decide, by decide, by decide, by decide⟩

/-- Two states that differ in the other two units. -/
theorem witness_ResultsDependOnTheirUnitAlone :
    unitOf .crcRd ≠ .system ∧ (building [0x02] 0xFFFF).cfg = State.reset.cfg ∧
    SameUnit (unitOf .crcRd) State.reset (building [0x02] 0xFFFF) ∧
    (∃ t, exec .crcRd State.reset = .next t) ∧ ∃ t, exec .crcRd (building [0x02] 0xFFFF) = .next t :=
  ⟨by decide, rfl, ⟨rfl, rfl⟩, ⟨_, rfl⟩, ⟨_, rfl⟩⟩

/-- Two commands that both err, of the builder and of the parser. -/
theorem witness_UnitsInterleaveInAnyOrder :
    unitOf .fbEnd ≠ .system ∧ unitOf (.fpPush 0x41) ≠ .system ∧ unitOf .fbEnd ≠ unitOf (.fpPush 0x41) ∧
    ∃ a ab, exec .fbEnd { State.reset with cfg := bounded 0 } = .next a ∧ exec (.fpPush 0x41) a = .next ab ∧
      ab.err = 0b110 :=
  ⟨by decide, by decide, by decide, _, _, rfl, rfl, by decide⟩

theorem witness_ReadsMayBeRepeated :
    (Instr.fpStat = .nop ∨ Instr.fpStat = .sysErr ∨ Instr.fpStat = .crcRd ∨ (∃ k, Instr.fpStat = .tblRd k) ∨
      Instr.fpStat = .fpStat ∨ Instr.fpStat = .fpRxcrc ∨ Instr.fpStat = .fpCalc) ∧
    ∃ k, Instr.tblRd 0xFF = .tblRd k :=
  ⟨by simp, _, rfl⟩

theorem witness_ResetLeavesTheTabledValues :
    ({ building [0x02] 0x8B66 with inbox := [.hardwareReset, .command 0x0000] } : State).inbox =
      .hardwareReset :: [.command 0x0000] := rfl

theorem witness_StepRunsTheDecodedCommand :
    ({ State.reset with inbox := [.command 0x1153] } : State).inbox = .command 0x1153 :: [] ∧
    decode 0x1153 = .ok (.crcUpd 0x53) := by decide

theorem witness_NothingHappensUnasked : (building [0x02] 0xFFFF).inbox = [] := rfl

/-- Both kinds of reserved word. -/
theorem witness_ReservedWordsAreIllegal :
    ({ State.reset with inbox := [.command 0x4000] } : State).inbox = .command 0x4000 :: [] ∧
    decode 0x4000 = .error (.unknownOpcode 0x40) ∧ decode 0x1001 = .error (.lowByteNotZero .crcClr 0x01) := by decide

theorem witness_DecodingIsByMaskAndMatch :
    (0x11FF : Word) &&& Opcode.maskWord .crcUpd = Opcode.matchWord .crcUpd ∧
    (0x1200 : Word) &&& Opcode.maskWord .crcRd = Opcode.matchWord .crcRd ∧
    decode 0x1201 = .error (.lowByteNotZero .crcRd 0x01) := by decide

/-- Two blocks, each with a word at its port. -/
theorem witness_BlocksShareNothing :
    0 ≠ 1 ∧ ∃ bs bs', stepBlock 0 [State.reset.withFetchWord 16 0x1153, State.reset.withFetchWord 16 0x2000] = some bs ∧
      stepBlock 1 bs = some bs' :=
  ⟨by decide, _, _, rfl, rfl⟩

theorem witness_DecodeOfEncodeIsTheCommand : (Instr.fpPush 0xFF).wf = true ∧ Instr.nop.wf = true := by decide

theorem witness_EncodeOfDecodeIsTheWord : decode 0x31FF = .ok (.fpPush 0xFF) ∧ decode 0x0000 = .ok .nop := by decide

/-- A block with an open frame and a verdict, a word at its port: it meets the invariants and steps. -/
theorem witness_EveryStepKeepsTheInvariants :
    State.Inv { building [0x02] 0xFFFF with acc := [0x06], res := .ack, inbox := [.command 0x2153] } ∧
    ∃ t, step { building [0x02] 0xFFFF with acc := [0x06], res := .ack, inbox := [.command 0x2153] } = .next t := by
  refine ⟨⟨?_, ?_, ?_, ?_, ?_, ?_, ?_, ?_, ?_, ?_, ?_, ?_, ?_, ?_, ?_, ?_, ?_⟩, _, rfl⟩
  case refine_17 => exact fun _ => ⟨[], [], rfl, rfl⟩
  all_goals simp [building, State.reset, State.initial, Config.standard, ackByte, crcInit, ResultCode.hasText]

end Sys2Proof.Tests
end

section
/-! SUPPORT. One step by what stands at the command port, and every command's meaning as one next state over the
operations of `Ops.lean` (`FP.PUSH` and `FP.EOS` stand in `Laws/Ops.lean`). Proofs about commands rewrite with these
and with the field lemmas, and unfold no meaning. -/

namespace Sys2Proof.Machine

/-! ### One step -/

theorem step_of_inbox_cons {s : State} {x : HostInput} {rest : List HostInput} (h : s.inbox = x :: rest) :
    step s = runInput x { s with inbox := rest } := by
  simp [step, State.takeInput_of_cons h]

theorem step_of_hardwareReset {s : State} {rest : List HostInput} (h : s.inbox = .hardwareReset :: rest) :
    step s = .next { s with inbox := rest }.hardwareReset :=
  step_of_inbox_cons h

theorem step_of_reserved {s : State} {w : Word} {rest : List HostInput} {r : Reserved}
    (h : s.inbox = .command w :: rest) (hw : decode w = .error r) :
    step s = .next ({ s with inbox := rest }.error errIll) := by
  rw [step_of_inbox_cons h, runInput, runWord, hw]
  exact execReserved_eq r _

/-! ### System commands -/

@[simp] theorem exec_nop (s : State) : exec .nop s = .next (s.respond 0x0000) := rfl

@[simp] theorem exec_sysRst (s : State) :
    exec .sysRst s = .next (s.clearCrc.clearBuilder.clearParser.clearErr.respond 0x0000) := rfl

@[simp] theorem exec_sysErr (s : State) : exec .sysErr s = .next (s.respond s.errWord) := rfl

/-! ### CRC Engine -/

@[simp] theorem exec_crcClr (s : State) : exec .crcClr s = .next (s.clearCrc.respond 0x0000) := rfl

@[simp] theorem exec_crcUpd (b : Byte) (s : State) :
    exec (.crcUpd b) s = .next ({ s with crc := upd s.crc b, ne := true }.respond 0x0000) := rfl

@[simp] theorem exec_crcRd (s : State) :
    exec .crcRd s = .next (s.respond (if s.ne then s.crc else 0x0000)) := rfl

@[simp] theorem exec_tblRd (k : Byte) (s : State) : exec (.tblRd k) s = .next (s.respond (tableEntry k)) := rfl

/-! ### Frame Builder: each command in the `FB_ST` that admits it and in the one that does not -/

theorem exec_fbStart_of_idle {s : State} (h : s.fbSt = .idle) :
    exec .fbStart s = .next ({ s.emit [stx] with fbCrc := crcInit, fbSt := .body }.respond 0x0000) := by
  simp only [exec, execFbStart, h]

theorem exec_fbStart_of_body {s : State} (h : s.fbSt = .body) : exec .fbStart s = .next (s.error errSeq) := by
  simp only [exec, execFbStart, h]

theorem exec_fbByte_of_idle {s : State} (b : Byte) (h : s.fbSt = .idle) :
    exec (.fbByte b) s = .next (s.error errSeq) := by
  simp only [exec, execFbByte, h]

theorem exec_fbByte_of_body {s : State} (b : Byte) (h : s.fbSt = .body) :
    exec (.fbByte b) s = .next ({ s.emit [b] with fbCrc := upd s.fbCrc b }.respond 0x0000) := by
  simp only [exec, execFbByte, h]

theorem exec_fbEnd_of_idle {s : State} (h : s.fbSt = .idle) : exec .fbEnd s = .next (s.error errSeq) := by
  simp only [exec, execFbEnd, h]

theorem exec_fbEnd_of_body {s : State} (h : s.fbSt = .body) :
    exec .fbEnd s = .next
      ({ (s.emit [etx]).emit (hex4 (upd s.fbCrc etx)) with fbCrc := upd s.fbCrc etx, fbSt := .idle }.respond
        (upd s.fbCrc etx)) := by
  simp only [exec, execFbEnd, h]

/-! ### Frame Parser -/

@[simp] theorem exec_fpRst (s : State) : exec .fpRst s = .next (s.clearParser.respond 0x0000) := rfl

@[simp] theorem exec_fpStat (s : State) : exec .fpStat s = .next (s.respondStatus false) := rfl

/-- `FP.GET` as one next state. -/
theorem exec_fpGet (s : State) :
    exec .fpGet s = .next
      (if s.rp < s.hi then { s with rp := s.rp + 1 }.respond (textWord (s.accByte s.rp)) else s.respond endWord) := by
  simp only [exec, execFpGet]
  split <;> rfl

@[simp] theorem exec_fpRxcrc (s : State) : exec .fpRxcrc s = .next (s.respond s.rxcrc) := rfl

@[simp] theorem exec_fpCalc (s : State) : exec .fpCalc s = .next (s.respond s.calcCrc) := rfl

end Sys2Proof.Machine
end

section
/-! What a command does to `ERR` (R32), and what the three resets leave (R39). -/

namespace Sys2Proof.Machine

/-- R212 (2) on `FB.START`, which wants no frame open. -/
theorem exec_fbStart_err {s t : State} (h : exec .fbStart s = .next t) :
    t.err = s.err ||| if s.fbSt = .body then errSeq else 0 := by
  cases hf : s.fbSt with
  | idle => cases (exec_fbStart_of_idle hf).symm.trans h; simp
  | body => cases (exec_fbStart_of_body hf).symm.trans h; simp

/-- `FB.BYTE` wants a frame open. -/
theorem exec_fbByte_err {b : Byte} {s t : State} (h : exec (.fbByte b) s = .next t) :
    t.err = s.err ||| if s.fbSt = .idle then errSeq else 0 := by
  cases hf : s.fbSt with
  | idle => cases (exec_fbByte_of_idle b hf).symm.trans h; simp
  | body => cases (exec_fbByte_of_body b hf).symm.trans h; simp

/-- `FB.END` wants a frame open. -/
theorem exec_fbEnd_err {s t : State} (h : exec .fbEnd s = .next t) :
    t.err = s.err ||| if s.fbSt = .idle then errSeq else 0 := by
  cases hf : s.fbSt with
  | idle => cases (exec_fbEnd_of_idle hf).symm.trans h; simp
  | body => cases (exec_fbEnd_of_body hf).symm.trans h; simp

/-- The capacity fault (R215) is the one cause of `OVF`. -/
theorem exec_fpPush_err {b : Byte} {s t : State} (h : exec (.fpPush b) s = .next t) :
    t.err = s.err ||| if s.res = .pending ∧ s.cfg.accMax = some s.acc.length then errOvf else 0 := by
  cases (exec_fpPush b s).symm.trans h
  by_cases hres : s.res = .pending
  · by_cases hfull : s.cfg.accMax = some s.acc.length
    · simp [ResultCode.terminal_iff, State.accFull_iff, hres, hfull]
    · simp [ResultCode.terminal_iff, State.accFull_iff, hres, hfull]
  · simp [ResultCode.terminal_iff, hres]

/-- The commands outside the builder, `FP.PUSH` and `SYS.RST` apart, have no cause of an error and clear none. -/
theorem exec_err_unchanged {i : Instr} {s t : State} (hrst : i ≠ .sysRst) (hunit : unitOf i ≠ .builder)
    (hpush : ∀ b, i ≠ .fpPush b) (h : exec i s = .next t) : t.err = s.err := by
  cases i with
  | sysRst => exact absurd rfl hrst
  | fbStart | fbByte | fbEnd => exact absurd rfl hunit
  | fpPush b => exact absurd rfl (hpush b)
  | fpEos => cases (exec_fpEos s).symm.trans h; split <;> simp
  | fpGet => cases (exec_fpGet s).symm.trans h; split <;> simp
  | nop | sysErr | crcClr | crcUpd | crcRd | tblRd | fpRst | fpStat | fpRxcrc | fpCalc =>
    simp only [exec_nop, exec_sysErr, exec_crcClr, exec_crcUpd, exec_crcRd, exec_tblRd, exec_fpRst, exec_fpStat,
      exec_fpRxcrc, exec_fpCalc, Host.Outcome.next.injEq] at h
    simp [← h]

/-- Settles O42: `ERR` after a command is read off its unit (the three builder commands, `FP.PUSH`, the rest); reserved
words and the resets by the equations of `step` and `SYS.RST`. -/
theorem errBitsAreSticky : Obligations.ErrBitsAreSticky := by
  refine ⟨fun s => exec_sysErr s, ?command, ?reserved, ?sysRst, ?hardware⟩
  case command =>
    intro i s t hrst h
    cases i with
    | fbStart => simpa [unitOf, errSeq] using exec_fbStart_err h
    | fbByte b => simpa [unitOf, errSeq] using exec_fbByte_err h
    | fbEnd => simpa [unitOf, errSeq] using exec_fbEnd_err h
    | fpPush b => simpa [unitOf, errOvf] using exec_fpPush_err h
    | _ => simpa [unitOf] using exec_err_unchanged hrst (by simp [unitOf]) (by simp) h
  case reserved =>
    intro s t w rest r hin hw h
    cases (step_of_reserved hin hw).symm.trans h
    rfl
  case sysRst =>
    intro s t h
    cases (exec_sysRst s).symm.trans h
    rfl
  case hardware =>
    intro s t rest hin h
    cases (step_of_hardwareReset hin).symm.trans h
    rfl

/-- Settles O48: each reset is one equation over the clearing operations, whose fields are the table's. -/
theorem resetLeavesTheTabledValues : Obligations.ResetLeavesTheTabledValues :=
  ⟨fun _ _ hin => ⟨none, step_of_hardwareReset hin⟩, exec_sysRst, exec_fpRst, Config.standard, [], none, rfl⟩

end Sys2Proof.Machine
end

section
/-! The decoder by mask and match (R73): a word is a row's exactly when its high byte is the row's opcode and, where the
row has no operand, its low byte is zero; such a word, and no other, decodes to the row's command. -/

namespace Sys2Proof

/-! ### A row's command -/

@[simp] theorem Opcode.instr_opcode (arg : Byte) (o : Opcode) : (o.instr arg).opcode = o := by
  cases o <;> rfl

theorem Opcode.instr_operand (arg : Byte) (o : Opcode) :
    (o.instr arg).operand = if o.format = .a then some arg else none := by
  cases o <;> rfl

theorem Opcode.code_injective {o o' : Opcode} (h : o.code = o'.code) : o = o' :=
  Option.some.inj (by rw [← opcodeOf_code o, h, opcodeOf_code])

/-! ### The two masks -/

@[simp] theorem opField_shiftLeft (c : Byte) : opField (c.zeroExtend 16 <<< 8) = c := by
  simpa using opField_join c 0

@[simp] theorem argField_shiftLeft (c : Byte) : argField (c.zeroExtend 16 <<< 8) = 0 := by
  simpa using argField_join c 0

/-- The bits of the mask `0xFF00`: those of the opcode field. -/
theorem getLsbD_highByteMask : ∀ i < 16, (0xFF00 : Word).getLsbD i = decide (8 ≤ i) := by decide

/-- The mask `0xFF00` leaves the opcode field in its place. -/
theorem and_highByteMask (w : Word) : w &&& (0xFF00 : Word) = (opField w).zeroExtend 16 <<< 8 := by
  apply BitVec.eq_of_getLsbD_eq
  intro i hi
  rw [BitVec.getLsbD_and, getLsbD_highByteMask i hi]
  by_cases h : i < 8
  · simp [h]
  · have h8 : i - 8 < 8 := by omega
    have hs : 8 + (i - 8) = i := by omega
    simp [opField, Nat.not_lt.1 h, h8, hs, hi]

theorem eq_shiftLeft_iff (w : Word) (c : Byte) :
    w = c.zeroExtend 16 <<< 8 ↔ opField w = c ∧ argField w = 0 := by
  constructor
  · rintro rfl
    simp
  · rintro ⟨rfl, harg⟩
    simpa [harg] using (fields_join w).symm

/-- The mask and match columns of R74, field by field. -/
theorem and_maskWord_eq_matchWord_iff (w : Word) (o : Opcode) :
    w &&& o.maskWord = o.matchWord ↔ opField w = o.code ∧ (o.format = .n → argField w = 0) := by
  unfold Opcode.maskWord Opcode.matchWord
  cases hf : o.format with
  | a =>
    rw [and_highByteMask, eq_shiftLeft_iff]
    simp
  | n =>
    have hones : w &&& (0xFFFF : Word) = w := BitVec.and_allOnes
    rw [hones, eq_shiftLeft_iff]
    simp

/-! ### The decoder -/

/-- A word that matches a row decodes to the row's command; where the format is `N` the low byte is zero and the
command does not carry it. -/
theorem decode_of_and_maskWord {w : Word} {o : Opcode} (h : w &&& o.maskWord = o.matchWord) :
    decode w = .ok (o.instr (argField w)) := by
  obtain ⟨hop, harg⟩ := (and_maskWord_eq_matchWord_iff w o).1 h
  rw [decode, hop, opcodeOf_code]
  cases hf : o.format with
  | a => simp [hf]
  | n => simp [hf, harg hf]

/-- A word that decodes matches the row of its command. -/
theorem and_maskWord_of_decode {w : Word} {i : Instr} (h : decode w = .ok i) :
    w &&& i.opcode.maskWord = i.opcode.matchWord := by
  rw [and_maskWord_eq_matchWord_iff]
  unfold decode at h
  split at h
  · cases h
  next o ho =>
    have hop : opField w = o.code := (code_of_opcodeOf ho).symm
    split at h
    next hf =>
      cases h
      simp [hop, hf]
    next hf =>
      split at h
      next harg =>
        cases h
        simp [hop, harg]
      · cases h

/-- Settles O53: a match gives the decoding and a decoding gives the match, so a word without a row is an error; the
opcode field tells the rows apart. -/
theorem decodingIsByMaskAndMatch : Obligations.DecodingIsByMaskAndMatch := by
  refine ⟨fun w o => ⟨fun h => ?decodes, ?isMatch⟩, fun w => ⟨fun h => ?reserved, ?noRow⟩,
    fun w o o' h h' => ?sameRow⟩
  case decodes =>
    exact ⟨_, decode_of_and_maskWord h, Opcode.instr_opcode _ o, Opcode.instr_operand _ o⟩
  case isMatch =>
    rintro ⟨i, hi, rfl, -⟩
    exact and_maskWord_of_decode hi
  case reserved =>
    cases hd : decode w with
    | error r => exact ⟨r, rfl⟩
    | ok i => exact absurd (and_maskWord_of_decode hd) (h i.opcode)
  case noRow =>
    rintro ⟨r, hr⟩ o h
    cases hr.symm.trans (decode_of_and_maskWord h)
  case sameRow =>
    obtain ⟨hop, -⟩ := (and_maskWord_eq_matchWord_iff w o).1 h
    obtain ⟨hop', -⟩ := (and_maskWord_eq_matchWord_iff w o').1 h'
    exact Opcode.code_injective (hop.symm.trans hop')

end Sys2Proof
end

section
/-! The hex CRC field (R85) by positional value, and the status word (R78, R86) field by field. -/

namespace Sys2Proof.Machine

/-! ### The hex CRC field -/

theorem hexval_toNat (cfg : Config) (b : Byte) :
    (hexval cfg b).map BitVec.toNat =
      if 0x30 ≤ b.toNat ∧ b.toNat ≤ 0x39 then some (b.toNat - 0x30)
      else if 0x41 ≤ b.toNat ∧ b.toNat ≤ 0x46 then some (b.toNat - 0x41 + 10)
      else if 0x61 ≤ b.toNat ∧ b.toNat ≤ 0x66 ∧ cfg.hexLowerOk = true then some (b.toNat - 0x61 + 10)
      else none := by
  unfold hexval
  split_ifs with hdigit hupper hlower
  · simp (disch := omega) [Nat.mod_eq_of_lt]
  · simp (disch := omega) [Nat.mod_eq_of_lt]
  · simp (disch := omega) [Nat.mod_eq_of_lt]
  · rfl

/-- Joining to a multiple of `2 ^ k` a value below it is adding it. -/
theorem or_eq_add_of_two_pow_dvd (k : Nat) {m b : Nat} (hm : 2 ^ k ∣ m) (hb : b < 2 ^ k) : m ||| b = m + b := by
  obtain ⟨a, rfl⟩ := hm
  exact (Nat.two_pow_add_eq_or_of_lt hb a).symm

/-- Shifting the digits into their places and joining them adds up their positional values: what stands in the lower
places is below the next place. -/
theorem nibbles_join (d0 d1 d2 d3 : BitVec 4) :
    (d0.zeroExtend 16 <<< 12) ||| (d1.zeroExtend 16 <<< 8) ||| (d2.zeroExtend 16 <<< 4) ||| d3.zeroExtend 16 =
      BitVec.ofNat 16 (d0.toNat * 4096 + d1.toNat * 256 + d2.toNat * 16 + d3.toNat) := by
  apply BitVec.eq_of_toNat_eq
  simp (disch := omega) only [BitVec.toNat_or, BitVec.toNat_shiftLeft, BitVec.truncate_eq_setWidth,
    BitVec.toNat_setWidth, BitVec.toNat_ofNat, Nat.shiftLeft_eq, Nat.reducePow, Nat.mod_eq_of_lt]
  rw [or_eq_add_of_two_pow_dvd 12 (m := d0.toNat * 4096) (by omega) (by omega),
    or_eq_add_of_two_pow_dvd 8 (m := d0.toNat * 4096 + d1.toNat * 256) (by omega) (by omega),
    or_eq_add_of_two_pow_dvd 4 (by omega) (by omega)]

theorem parsehex4_eq_none_iff (cfg : Config) (f0 f1 f2 f3 : Byte) :
    parsehex4 cfg [f0, f1, f2, f3] = none ↔
      hexval cfg f0 = none ∨ hexval cfg f1 = none ∨ hexval cfg f2 = none ∨ hexval cfg f3 = none := by
  simp only [parsehex4]
  split
  next h0 h1 h2 h3 => simp [h0, h1, h2, h3]
  next hnot =>
    simp only [true_iff]
    by_contra hall
    simp only [not_or, Option.ne_none_iff_exists'] at hall
    obtain ⟨⟨d0, h0⟩, ⟨d1, h1⟩, ⟨d2, h2⟩, ⟨d3, h3⟩⟩ := hall
    exact hnot d0 d1 d2 d3 h0 h1 h2 h3

theorem parsehex4_of_digits {cfg : Config} {f0 f1 f2 f3 : Byte} {d0 d1 d2 d3 : BitVec 4}
    (h0 : hexval cfg f0 = some d0) (h1 : hexval cfg f1 = some d1) (h2 : hexval cfg f2 = some d2)
    (h3 : hexval cfg f3 = some d3) :
    parsehex4 cfg [f0, f1, f2, f3] =
      some (BitVec.ofNat 16 (d0.toNat * 4096 + d1.toNat * 256 + d2.toNat * 16 + d3.toNat)) := by
  simp only [parsehex4, h0, h1, h2, h3, nibbles_join]

/-- Settles O18: a byte's value range by range, then the field's refusal and its value. -/
theorem hexFieldIsPositional : Obligations.HexFieldIsPositional :=
  fun cfg => ⟨hexval_toNat cfg, fun f0 f1 f2 f3 =>
    ⟨parsehex4_eq_none_iff cfg f0 f1 f2 f3, fun _ _ _ _ => parsehex4_of_digits⟩⟩

/-! ### The status word -/

theorem ResultCode.code_le_eight (r : ResultCode) : r.code.toNat ≤ 8 := by
  cases r <;> decide

/-- R78, bit by bit. -/
theorem State.getLsbD_statw (s : State) (drop : Bool) (i : Nat) :
    (s.statw drop).getLsbD i =
      if i < 4 then s.res.code.getLsbD i else if i = 4 then s.eosf else if i = 8 then drop else false := by
  change (0#7 ++ BitVec.ofBool drop ++ 0#3 ++ BitVec.ofBool s.eosf ++ s.res.code).getLsbD i = _
  rw [BitVec.getLsbD_append, BitVec.getLsbD_append, BitVec.getLsbD_append, BitVec.getLsbD_append]
  obtain hres | rfl | hzero | rfl | hzero : i < 4 ∨ i = 4 ∨ 4 < i ∧ i < 8 ∨ i = 8 ∨ 8 < i := by omega
  · simp [hres]
  · simp
  · simp (disch := omega) [if_neg]
  · simp
  · simp (disch := omega) [if_neg]

theorem State.statw_res (s : State) (drop : Bool) : (s.statw drop).extractLsb' 0 4 = s.res.code := by
  ext i hi
  simp [State.getLsbD_statw, hi]

theorem State.statw_eosf (s : State) (drop : Bool) : (s.statw drop).getLsbD 4 = s.eosf := by
  rw [State.getLsbD_statw]
  rfl

theorem State.statw_bits_7_5 (s : State) (drop : Bool) : (s.statw drop).extractLsb' 5 3 = 0 := by
  ext i hi
  rw [BitVec.getElem_extractLsb', State.getLsbD_statw]
  simp (disch := omega) [if_neg]

theorem State.statw_drop (s : State) (drop : Bool) : (s.statw drop).getLsbD 8 = drop := by
  rw [State.getLsbD_statw]
  rfl

theorem State.statw_bits_15_9 (s : State) (drop : Bool) : (s.statw drop).extractLsb' 9 7 = 0 := by
  ext i hi
  rw [BitVec.getElem_extractLsb', State.getLsbD_statw]
  simp (disch := omega) [if_neg]

/-- Settles O26: the codes are the table of `ResultCode.code`; each field of the status word is a lemma above. -/
theorem statusWordLayout : Obligations.StatusWordLayout :=
  ⟨⟨rfl, rfl, rfl, rfl, rfl, rfl, rfl, rfl, rfl⟩, fun s => s.res.code_le_eight, fun s drop =>
    ⟨s.statw_res drop, s.statw_eosf drop, s.statw_bits_7_5 drop, s.statw_drop drop, s.statw_bits_15_9 drop⟩⟩

end Sys2Proof.Machine
end

section
/-! The CRC Engine's commands (R106 to R109), and the two functions they compute with: `upd` in plain numbers (R102) and
`crc16` as a fold that takes its bytes from the left (R103). -/

namespace Sys2Proof

/-! ### A row's word, alone and over an operand -/

/-- A row's word with a zero low byte is its command, on operand 0 where the format has one. -/
theorem decode_matchWord (o : Opcode) : decode o.matchWord = .ok (o.instr 0) := by
  have hmatch : o.matchWord &&& o.maskWord = o.matchWord :=
    (and_maskWord_eq_matchWord_iff _ o).2 ⟨opField_shiftLeft o.code, fun _ => argField_shiftLeft o.code⟩
  simpa [Opcode.matchWord] using decode_of_and_maskWord hmatch

/-- A format-`A` row's word over any byte is its command with that operand. -/
theorem decode_matchWord_or {o : Opcode} (h : o.format = .a) (b : Byte) :
    decode (o.matchWord ||| b.zeroExtend 16) = .ok (o.instr b) := by
  have harg : argField (o.matchWord ||| b.zeroExtend 16) = b := argField_join o.code b
  have hmatch : (o.matchWord ||| b.zeroExtend 16) &&& o.maskWord = o.matchWord :=
    (and_maskWord_eq_matchWord_iff _ o).2 ⟨opField_join o.code b, by simp [h]⟩
  rw [decode_of_and_maskWord hmatch, harg]

end Sys2Proof

namespace Sys2Proof.Machine

/-! ### The commands -/

/-- Settles O4: the row `CRC.CLR` by its word, and its equation. -/
theorem crcClrStartsANewChecksum : Obligations.CrcClrStartsANewChecksum :=
  ⟨decode_matchWord .crcClr, exec_crcClr⟩

/-- Settles O5: the row `CRC.UPD` by its word over `b`, and its equation. -/
theorem crcUpdAbsorbsOneByte : Obligations.CrcUpdAbsorbsOneByte :=
  fun b => ⟨decode_matchWord_or (o := .crcUpd) rfl b, exec_crcUpd b⟩

theorem exec_crcRd_of_ne {s : State} (h : s.ne = true) : exec .crcRd s = .next (s.respond s.crc) := by
  simp [h]

theorem exec_crcRd_of_empty {s : State} (h : s.ne = false) : exec .crcRd s = .next (s.respond 0x0000) := by
  simp [h]

/-- Settles O6: the row `CRC.RD` by its word, and its equation on the two values of `NE`. -/
theorem crcRdReturnsTheChecksum : Obligations.CrcRdReturnsTheChecksum :=
  ⟨decode_matchWord .crcRd, fun _ => ⟨exec_crcRd_of_ne, exec_crcRd_of_empty⟩⟩

/-- Settles O7: the row `TBL.RD` by its word over `k`, and its equation. -/
theorem tblRdReturnsTheEntry : Obligations.TblRdReturnsTheEntry :=
  fun k => ⟨decode_matchWord_or (o := .tblRd) rfl k, exec_tblRd k⟩

/-! ### `upd` in numbers -/

/-- The index of the table step: the high byte of the checksum against the byte absorbed. -/
theorem updIndex_eq_ofNat (c : Word) (b : Byte) :
    ((c >>> 8) ^^^ b.zeroExtend 16).setWidth 8 = BitVec.ofNat 8 (c.toNat / 256 ^^^ b.toNat) := by
  have hhigh : (c >>> 8).toNat = c.toNat / 256 := by simp [Nat.shiftRight_eq_div_pow]
  have hbyte : (b.zeroExtend 16).toNat = b.toNat := BitVec.toNat_setWidth_of_le (by decide)
  apply BitVec.eq_of_toNat_eq
  rw [BitVec.toNat_setWidth, BitVec.toNat_xor, hhigh, hbyte, BitVec.toNat_ofNat]

theorem upd_toNat (c : Word) (b : Byte) :
    (upd c b).toNat =
      (c.toNat * 256 % 65536) ^^^ (tableEntry (BitVec.ofNat 8 (c.toNat / 256 ^^^ b.toNat))).toNat := by
  have hshift : (c <<< 8).toNat = c.toNat * 256 % 65536 := by simp [Nat.shiftLeft_eq]
  rw [upd, BitVec.toNat_xor, hshift, updIndex_eq_ofNat]

/-- Settles O9: the shift and the index as numbers; the rule's example is computed. -/
theorem updIsTheTableStep : Obligations.UpdIsTheTableStep :=
  ⟨upd_toNat, by decide⟩

/-! ### `crc16` as a fold -/

@[simp] theorem crc16_nil : crc16 [] = 0x0000 := rfl

theorem crc16_singleton (b : Byte) : crc16 [b] = upd crcInit b := rfl

/-- One more byte at the end of a sequence that has one is one more `upd`. -/
theorem crc16_concat {s : List Byte} (h : s ≠ []) (b : Byte) : crc16 (s ++ [b]) = upd (crc16 s) b := by
  calc crc16 (s ++ [b]) = crcFold crcInit (s ++ [b]) := crc16_of_ne_nil (List.append_ne_nil_of_left_ne_nil h [b])
    _ = crcFold (crcFold crcInit s) [b] := crcFold_append crcInit s [b]
    _ = upd (crcFold crcInit s) b := by rw [crcFold_cons, crcFold_nil]
    _ = upd (crc16 s) b := by rw [crc16_of_ne_nil h]

/-- Settles O10: the empty sequence, one byte, and one byte more. -/
theorem crcOfSequence : Obligations.CrcOfSequence :=
  ⟨crc16_nil, crc16_singleton, fun _ b h => crc16_concat h b⟩

end Sys2Proof.Machine
end

section
/-! The Frame Builder's commands (R131 to R133): each one's word, and its next state field by field on the two values of
`FB_ST`. -/

namespace Sys2Proof.Machine

/-- R212 on `SEQ`, field by field: the sticky bit and the response, nothing else. -/
theorem State.error_errSeq (s : State) : s.error errSeq = { s with err := s.err ||| 0b010, resp := some 0xFFFF } := rfl

/-- Settles O14: the row `FB.START` by its word, and its equation on an idle builder and on an open frame. -/
theorem fbStartOpensAFrame : Obligations.FbStartOpensAFrame := by
  refine ⟨decode_matchWord .fbStart, fun s => ⟨fun hidle => ?opens, fun hbody => ?refuses⟩⟩
  case opens => exact exec_fbStart_of_idle hidle
  case refuses => rw [exec_fbStart_of_body hbody, State.error_errSeq]

/-- Settles O15: the row `FB.BYTE` by its word over `b`, and its equation on an open frame and on an idle builder. -/
theorem fbByteEmitsOneBodyByte : Obligations.FbByteEmitsOneBodyByte := by
  refine fun b => ⟨decode_matchWord_or (o := .fbByte) rfl b, fun s => ⟨fun hbody => ?emits, fun hidle => ?refuses⟩⟩
  case emits => exact exec_fbByte_of_body b hbody
  case refuses => rw [exec_fbByte_of_idle b hidle, State.error_errSeq]

/-- Settles O16: the row `FB.END` by its word, and its equation on an open frame and on an idle builder. -/
theorem fbEndClosesTheFrame : Obligations.FbEndClosesTheFrame := by
  refine ⟨decode_matchWord .fbEnd, fun s => ⟨fun hbody => ?closes, fun hidle => ?refuses⟩⟩
  case closes => exact exec_fbEnd_of_body hbody
  case refuses => rw [exec_fbEnd_of_idle hidle, State.error_errSeq]

end Sys2Proof.Machine
end

section
/-! The Frame Parser's functions (R152 to R155): the first ETX as the library's search over the bytes after the first,
the two loops of `trim` by what they pass over and where they stop, and `classify` as four cases that exclude each
other. -/

namespace Sys2Proof.Machine

/-! ### The first ETX -/

theorem etxFrom_eq_idxOf? (k : Nat) (s : List Byte) : etxFrom k s = (s.idxOf? etx).map (· + k) := by
  induction s generalizing k with
  | nil => rfl
  | cons b t ih =>
    rw [etxFrom, List.idxOf?_cons]
    by_cases hb : b = etx
    · simp [hb]
    · simp [hb, ih, Function.comp_def, Nat.add_comm, Nat.add_left_comm]

theorem firstEtx_eq_idxOf? (s : List Byte) : firstEtx s = (s.tail.idxOf? etx).map (· + 1) := by
  cases s with
  | nil => rfl
  | cons b t => exact etxFrom_eq_idxOf? 1 t

/-- The library's search, by the partial read. -/
theorem idxOf?_eq_some_iff_getElem? (s : List Byte) (b : Byte) (i : Nat) :
    s.idxOf? b = some i ↔ s[i]? = some b ∧ ∀ j < i, s[j]? ≠ some b := by
  simp only [List.idxOf?_eq_some_iff, List.getElem?_eq_some_iff, ne_eq, not_exists]
  exact ⟨fun ⟨hi, hget, hleast⟩ => ⟨⟨hi, hget⟩, fun j hj _ => hleast j hj⟩,
    fun ⟨⟨hi, hget⟩, hleast⟩ => ⟨hi, hget, fun j hj => hleast j hj (by omega)⟩⟩

theorem firstEtx_eq_some_iff (s : List Byte) (k : Nat) :
    firstEtx s = some k ↔ 1 ≤ k ∧ s[k]? = some 0x03 ∧ ∀ j, 1 ≤ j → j < k → s[j]? ≠ some 0x03 := by
  rw [firstEtx_eq_idxOf?]
  cases k with
  | zero => simp
  | succ i =>
    calc (s.tail.idxOf? etx).map (· + 1) = some (i + 1) ↔ s.tail.idxOf? etx = some i := by simp
      _ ↔ s[i + 1]? = some 0x03 ∧ ∀ j < i, s[j + 1]? ≠ some 0x03 := by
        rw [idxOf?_eq_some_iff_getElem?]
        simp only [List.getElem?_tail, etx]
      _ ↔ 1 ≤ i + 1 ∧ s[i + 1]? = some 0x03 ∧ ∀ j, 1 ≤ j → j < i + 1 → s[j]? ≠ some 0x03 := by
        refine ⟨fun ⟨hetx, hleast⟩ => ⟨by omega, hetx, fun j hj hlt => ?_⟩,
          fun ⟨_, hetx, hleast⟩ => ⟨hetx, fun j hj => hleast (j + 1) (by omega) (by omega)⟩⟩
        obtain ⟨j, rfl⟩ := Nat.exists_eq_add_of_le' hj
        exact hleast j (by omega)

theorem firstEtx_eq_none_iff (s : List Byte) : firstEtx s = none ↔ ∀ j, 1 ≤ j → s[j]? ≠ some 0x03 := by
  rw [firstEtx_eq_idxOf?, Option.map_eq_none_iff, List.idxOf?_eq_none_iff, List.mem_iff_getElem?, not_exists]
  simp only [List.getElem?_tail, etx]
  refine ⟨fun hnone j hj => ?_, fun hnone j => hnone (j + 1) (by omega)⟩
  obtain ⟨j, rfl⟩ := Nat.exists_eq_add_of_le' hj
  exact hnone j

/-- Settles O20: both equivalences of `firstEtx`. -/
theorem firstEtxIsTheLeastOffset : Obligations.FirstEtxIsTheLeastOffset :=
  ⟨firstEtx_eq_some_iff, firstEtx_eq_none_iff⟩

/-! ### `trim` -/

/-- The first loop passes over whitespace only. -/
theorem whitespaceAt_of_lt_trimFront {cfg : Config} {s : List Byte} {n lo j : Nat} (hlo : lo ≤ j)
    (hj : j < trimFront cfg s lo n) : whitespaceAt cfg s j = true := by
  induction n generalizing lo with
  | zero => rw [trimFront] at hj; omega
  | succ n ih =>
    rw [trimFront] at hj
    split at hj
    next hws =>
      obtain rfl | hlt := Nat.eq_or_lt_of_le hlo
      · exact hws
      · exact ih hlt hj
    · omega

/-- The first loop stops before the end of the window only where there is no whitespace. -/
theorem not_whitespaceAt_trimFront {cfg : Config} {s : List Byte} {n lo : Nat} (h : trimFront cfg s lo n < lo + n) :
    ¬ whitespaceAt cfg s (trimFront cfg s lo n) = true := by
  induction n generalizing lo with
  | zero => rw [trimFront] at h; omega
  | succ n ih =>
    rw [trimFront] at h ⊢
    split
    next hws => rw [if_pos hws] at h; exact ih (by omega)
    next hws => exact hws

/-- The second loop passes over whitespace only. -/
theorem whitespaceAt_of_trimBack_le {cfg : Config} {s : List Byte} {n lo j : Nat} (hj : trimBack cfg s lo n ≤ j)
    (hn : j < lo + n) : whitespaceAt cfg s j = true := by
  induction n with
  | zero => rw [trimBack] at hj; omega
  | succ n ih =>
    rw [trimBack] at hj
    split at hj
    next hws =>
      obtain hlt | rfl : j < lo + n ∨ j = lo + n := by omega
      · exact ih hj hlt
      · exact hws
    · omega

/-- The second loop stops before the start of the window only after a byte that is no whitespace. -/
theorem not_whitespaceAt_trimBack_sub_one {cfg : Config} {s : List Byte} {n lo : Nat} (h : lo < trimBack cfg s lo n) :
    ¬ whitespaceAt cfg s (trimBack cfg s lo n - 1) = true := by
  induction n with
  | zero => rw [trimBack] at h; omega
  | succ n ih =>
    rw [trimBack] at h ⊢
    split
    next hws => rw [if_pos hws] at h; exact ih h
    next hws => exact hws

/-- Settles O21: the first loop's bound is the start, the second loop's the end; a window trimmed to nothing is all
whitespace, so that the first loop has run to its end. -/
theorem trimDropsExactlyTheSurroundingWhitespace : Obligations.TrimDropsExactlyTheSurroundingWhitespace := by
  intro cfg s lo hi hwin _
  obtain ⟨lo', hfront⟩ : ∃ lo', trimFront cfg s lo (hi - lo) = lo' := ⟨_, rfl⟩
  obtain ⟨hi', hback⟩ : ∃ hi', trimBack cfg s lo' (hi - lo') = hi' := ⟨_, rfl⟩
  obtain ⟨hlo, hlo'⟩ := hfront ▸ trimFront_bounds cfg s (hi - lo) lo
  obtain ⟨hhi, hhi'⟩ := hback ▸ trimBack_bounds cfg s (hi - lo') lo'
  have hstart : lo' < hi → ¬ whitespaceAt cfg s lo' = true := fun h =>
    hfront ▸ not_whitespaceAt_trimFront (by omega)
  have hdropped : ∀ j, hi' ≤ j → j < hi → whitespaceAt cfg s j = true := fun j hj hlt =>
    whitespaceAt_of_trimBack_le (hback ▸ hj) (by omega)
  refine ⟨lo', hi', ?value, hlo, hhi, by omega, ?front, ?back, ?first, ?last, ?empty⟩
  case value => simp only [trim, hfront, hback]
  case front => exact fun j b hj hlt => mem_ws_of_whitespaceAt (whitespaceAt_of_lt_trimFront hj (hfront ▸ hlt))
  case back => exact fun j b hj hlt => mem_ws_of_whitespaceAt (hdropped j hj hlt)
  case first => exact fun b hlt => notMem_ws_of_whitespaceAt (hstart (by omega))
  case last =>
    exact fun b hlt => notMem_ws_of_whitespaceAt (hback ▸ not_whitespaceAt_trimBack_sub_one (hback.symm ▸ hlt))
  case empty =>
    intro heq
    by_contra hne
    exact hstart (by omega) (hdropped lo' (by omega) (by omega))

/-! ### `classify` -/

/-- The verdict on a complete frame is one of the three that a checksum field decides. -/
theorem classifyFrame_ne (cfg : Config) (s : List Byte) (e : Nat) :
    classifyFrame cfg s e ≠ .ack ∧ classifyFrame cfg s e ≠ .nak ∧ classifyFrame cfg s e ≠ .pending := by
  cases hv : parsehex4 cfg (crcField s e) with
  | none => simp [classifyFrame_of_none hv]
  | some v =>
    by_cases hc : crc16 (crcCovered s e) = v
    · simp [classifyFrame_of_eq hv hc]
    · simp [classifyFrame_of_ne hv hc]

/-- R154 by the first byte and, after STX, by whether the frame is complete. -/
theorem classify_cases (cfg : Config) (s : List Byte) :
    (s[0]? = some 0x06 ∧ classify cfg s = .ack) ∨
    (s[0]? = some 0x15 ∧ classify cfg s = .nak) ∨
    (s[0]? = some 0x02 ∧ ∃ e, firstEtx s = some e ∧ e + 5 ≤ s.length ∧ classify cfg s = classifyFrame cfg s e) ∨
    (s[0]? ≠ some 0x06 ∧ s[0]? ≠ some 0x15 ∧
      (s[0]? = some 0x02 → ∀ e, firstEtx s = some e → s.length < e + 5) ∧ classify cfg s = .pending) := by
  cases s with
  | nil => simp [classify]
  | cons a t =>
    by_cases hack : a = 0x06
    · subst hack
      exact .inl ⟨rfl, classify_ack cfg t⟩
    by_cases hnak : a = 0x15
    · subst hnak
      exact .inr (.inl ⟨rfl, classify_nak cfg t⟩)
    by_cases hstx : a = 0x02
    · subst hstx
      cases he : firstEtx (0x02 :: t) with
      | none => exact .inr (.inr (.inr ⟨by simp, by simp, by simp, classify_open cfg he⟩))
      | some e =>
        by_cases hlen : (0x02 :: t : List Byte).length < e + 5
        · exact .inr (.inr (.inr ⟨by simp, by simp, by simpa using hlen, classify_short cfg he hlen⟩))
        · exact .inr (.inr (.inl ⟨rfl, e, rfl, Nat.not_lt.1 hlen, classify_complete cfg he hlen⟩))
    · exact .inr (.inr (.inr ⟨by simpa using hack, by simpa using hnak,
        fun h => absurd (Option.some.inj h) hstx, classify_raw cfg t hack hnak hstx⟩))

theorem classify_eq_ack_iff (cfg : Config) (s : List Byte) : classify cfg s = .ack ↔ s[0]? = some 0x06 := by
  obtain ⟨h0, h⟩ | ⟨h0, h⟩ | ⟨h0, e, -, -, h⟩ | ⟨h6, -, -, h⟩ := classify_cases cfg s
  · exact iff_of_true h h0
  · exact iff_of_false (by simp [h]) (by simp [h0])
  · exact iff_of_false (by simp [h, classifyFrame_ne]) (by simp [h0])
  · exact iff_of_false (by simp [h]) h6

theorem classify_eq_nak_iff (cfg : Config) (s : List Byte) : classify cfg s = .nak ↔ s[0]? = some 0x15 := by
  obtain ⟨h0, h⟩ | ⟨h0, h⟩ | ⟨h0, e, -, -, h⟩ | ⟨-, h15, -, h⟩ := classify_cases cfg s
  · exact iff_of_false (by simp [h]) (by simp [h0])
  · exact iff_of_true h h0
  · exact iff_of_false (by simp [h, classifyFrame_ne]) (by simp [h0])
  · exact iff_of_false (by simp [h]) h15

theorem classify_eq_pending_iff (cfg : Config) (s : List Byte) :
    classify cfg s = .pending ↔ s[0]? ≠ some 0x06 ∧ s[0]? ≠ some 0x15 ∧
      (s[0]? = some 0x02 → ∀ e, firstEtx s = some e → s.length < e + 5) := by
  obtain ⟨h0, h⟩ | ⟨h0, h⟩ | ⟨h0, e, he, hlen, h⟩ | ⟨h6, h15, hopen, h⟩ := classify_cases cfg s
  · simp [h0, h]
  · simp [h0, h]
  · simp [h0, h, he, Nat.not_lt.2 hlen, classifyFrame_ne]
  · exact ⟨fun _ => ⟨h6, h15, hopen⟩, fun _ => h⟩

/-- Every other verdict is that of a complete frame. -/
theorem classify_eq_iff_of_frame (cfg : Config) (s : List Byte) {d : Verdict} (hack : d ≠ .ack) (hnak : d ≠ .nak)
    (hpending : d ≠ .pending) :
    classify cfg s = d ↔
      s[0]? = some 0x02 ∧ ∃ e, firstEtx s = some e ∧ e + 5 ≤ s.length ∧ classifyFrame cfg s e = d := by
  obtain ⟨h0, h⟩ | ⟨h0, h⟩ | ⟨h0, e, he, hlen, h⟩ | ⟨-, -, hopen, h⟩ := classify_cases cfg s
  · simp [h0, h, hack.symm]
  · simp [h0, h, hnak.symm]
  · simp [h0, h, he, hlen]
  · refine iff_of_false (h ▸ hpending.symm) fun ⟨h0, e, he, hlen, _⟩ => ?_
    exact absurd (hopen h0 e he) (Nat.not_lt.2 hlen)

/-! The three verdicts on a complete frame. -/

theorem classifyFrame_eq_crcFormatError_iff (cfg : Config) (s : List Byte) (e : Nat) :
    classifyFrame cfg s e = .crcFormatError ↔ parsehex4 cfg (crcField s e) = none := by
  cases hv : parsehex4 cfg (crcField s e) with
  | none => simp [classifyFrame_of_none hv]
  | some v =>
    by_cases hc : crc16 (crcCovered s e) = v
    · simp [classifyFrame_of_eq hv hc]
    · simp [classifyFrame_of_ne hv hc]

theorem classifyFrame_eq_crcMismatchError_iff (cfg : Config) (s : List Byte) (e : Nat) (v c : Word) :
    classifyFrame cfg s e = .crcMismatchError v c ↔
      parsehex4 cfg (crcField s e) = some v ∧ c = crc16 (crcCovered s e) ∧ c ≠ v := by
  cases hw : parsehex4 cfg (crcField s e) with
  | none => simp [classifyFrame_of_none hw]
  | some w =>
    by_cases hc : crc16 (crcCovered s e) = w
    · refine iff_of_false (by simp [classifyFrame_of_eq hw hc]) ?_
      rintro ⟨hv, rfl, hne⟩
      exact hne (hc.trans (Option.some.inj hv))
    · rw [classifyFrame_of_ne hw hc]
      constructor
      · rintro ⟨⟩
        exact ⟨rfl, rfl, hc⟩
      · rintro ⟨⟨⟩, rfl, -⟩
        rfl

theorem classifyFrame_eq_framedText_iff (cfg : Config) (s : List Byte) (e lo hi : Nat) (v c : Word) :
    classifyFrame cfg s e = .framedText lo hi v c ↔
      parsehex4 cfg (crcField s e) = some v ∧ c = crc16 (crcCovered s e) ∧ c = v ∧ trim cfg s 1 e = (lo, hi) := by
  cases hw : parsehex4 cfg (crcField s e) with
  | none => simp [classifyFrame_of_none hw]
  | some w =>
    by_cases hc : crc16 (crcCovered s e) = w
    · rw [classifyFrame_of_eq hw hc]
      constructor
      · rintro ⟨⟩
        exact ⟨rfl, hc.symm, rfl, rfl⟩
      · rintro ⟨⟨⟩, -, rfl, htrim⟩
        rw [htrim]
    · refine iff_of_false (by simp [classifyFrame_of_ne hw hc]) ?_
      rintro ⟨hv, rfl, heq, -⟩
      exact hc (heq.trans (Option.some.inj hv).symm)

/-- Settles O22: the control bytes and the pending accumulator by the four cases, the rest by the verdict on the
complete frame. -/
theorem classifyDecidesEveryAccumulator : Obligations.ClassifyDecidesEveryAccumulator := by
  refine fun cfg s => ⟨classify_eq_ack_iff cfg s, classify_eq_nak_iff cfg s, ?format, fun v c => ?mismatch,
    fun lo hi v c => ?framed, classify_eq_pending_iff cfg s⟩
  case format =>
    rw [classify_eq_iff_of_frame cfg s (by simp) (by simp) (by simp)]
    simp only [classifyFrame_eq_crcFormatError_iff, crcField]
  case mismatch =>
    rw [classify_eq_iff_of_frame cfg s (by simp) (by simp) (by simp)]
    simp only [classifyFrame_eq_crcMismatchError_iff, crcField, crcCovered]
  case framed =>
    rw [classify_eq_iff_of_frame cfg s (by simp) (by simp) (by simp)]
    simp only [classifyFrame_eq_framedText_iff, crcField, crcCovered]

/-! ### `classify_eos` -/

theorem classifyEos_nil (cfg : Config) : classifyEos cfg [] = .noData := rfl

theorem classifyEos_of_ne_nil (cfg : Config) {s : List Byte} (h : s ≠ []) :
    classifyEos cfg s = .rawText (trim cfg s 0 s.length).1 (trim cfg s 0 s.length).2 := by
  cases s with
  | nil => exact absurd rfl h
  | cons b t => rfl

/-- Settles O23: the empty accumulator, and any other. -/
theorem classifyAtEndOfStream : Obligations.ClassifyAtEndOfStream := by
  refine fun cfg s => ⟨fun hnil => ?noData, fun hne lo hi htrim => ?rawText⟩
  case noData => rw [hnil, classifyEos_nil]
  case rawText => rw [classifyEos_of_ne_nil cfg hne, htrim]

end Sys2Proof.Machine
end

section
/-! The Frame Parser's commands (R156 to R162): each one's word, and its next state. -/

namespace Sys2Proof.Machine

/-- Settles O27: the row `FP.RST` by its word, and its equation. -/
theorem fpRstClearsTheParser : Obligations.FpRstClearsTheParser :=
  ⟨decode_matchWord .fpRst, exec_fpRst⟩

/-! ### `FP.PUSH` and `FP.EOS`: after a verdict, and while there is none -/

theorem exec_fpPush_of_terminal {s : State} (b : Byte) (h : s.res ≠ .pending) :
    exec (.fpPush b) s = .next (s.respondStatus true) := by
  rw [exec_fpPush, if_pos ((ResultCode.terminal_iff _).2 h)]

theorem exec_fpPush_of_full {s : State} (b : Byte) (h : s.res = .pending) (hfull : s.cfg.accMax = some s.acc.length) :
    exec (.fpPush b) s = .next (({ s with res := .overflow }.setErr errOvf).respondStatus true) := by
  rw [exec_fpPush, if_neg (by simp [ResultCode.terminal_iff, h]), if_pos (s.accFull_iff.2 hfull)]

theorem exec_fpPush_of_room {s : State} (b : Byte) (h : s.res = .pending) (hroom : s.cfg.accMax ≠ some s.acc.length) :
    exec (.fpPush b) s =
      .next (((s.append b).latch (classify s.cfg (s.acc ++ [b]))).respondStatus false) := by
  rw [exec_fpPush, if_neg (by simp [ResultCode.terminal_iff, h]), if_neg (by simpa [State.accFull_iff] using hroom)]

theorem exec_fpEos_of_terminal {s : State} (h : s.res ≠ .pending) :
    exec .fpEos s = .next (s.respondStatus true) := by
  rw [exec_fpEos, if_pos ((ResultCode.terminal_iff _).2 h)]

theorem exec_fpEos_of_pending {s : State} (h : s.res = .pending) :
    exec .fpEos s = .next (({ s with eosf := true }.latch (classifyEos s.cfg s.acc)).respondStatus false) := by
  rw [exec_fpEos, if_neg (by simp [ResultCode.terminal_iff, h])]

/-- Settles O28: the row `FP.PUSH` by its word over `b`, and its equation in the three cases; with room, the state is
the one `State.latch` gives for each verdict of `classify`. -/
theorem fpPushDeliversOneByte : Obligations.FpPushDeliversOneByte := by
  refine fun b => ⟨decode_matchWord_or (o := .fpPush) rfl b, fun s => ⟨exec_fpPush_of_terminal b, fun h hfull => ?full,
    fun h hroom => ?room⟩⟩
  case full => exact ⟨_, rfl, exec_fpPush_of_full b h hfull⟩
  case room =>
    have latched {d : Verdict} (hd : classify s.cfg (s.acc ++ [b]) = d) :
        (s.append b).latch (classify s.cfg (s.acc ++ [b])) = (s.append b).latch d := by rw [hd]
    exact ⟨_, exec_fpPush_of_room b h hroom, latched, latched, latched, latched, fun _ _ => latched,
      fun _ _ _ _ => latched⟩

/-- Settles O29: the row `FP.EOS` by its word, and its equation after a verdict, on nothing received and on a reply. -/
theorem fpEosEndsTheStream : Obligations.FpEosEndsTheStream := by
  refine ⟨decode_matchWord .fpEos, fun s => ⟨exec_fpEos_of_terminal, fun h hnil => ⟨_, rfl, ?noData⟩,
    fun h hne lo hi htrim => ⟨_, rfl, ?rawText⟩⟩⟩
  case noData =>
    rw [exec_fpEos_of_pending h, hnil, classifyEos_nil]
    rfl
  case rawText =>
    rw [exec_fpEos_of_pending h, classifyEos_of_ne_nil s.cfg hne, htrim]
    rfl

/-! ### The reads -/

/-- Settles O30: the row `FP.STAT` by its word, and its equation. -/
theorem fpStatReturnsTheStatus : Obligations.FpStatReturnsTheStatus :=
  ⟨decode_matchWord .fpStat, exec_fpStat⟩

theorem exec_fpGet_of_lt {s : State} {b : Byte} (h : s.rp < s.hi) (hb : s.acc[s.rp]? = some b) :
    exec .fpGet s = .next ({ s with rp := s.rp + 1 }.respond (textWord b)) := by
  rw [exec_fpGet, if_pos h, State.accByte_of_getElem? hb]

theorem exec_fpGet_of_end {s : State} (h : ¬ s.rp < s.hi) : exec .fpGet s = .next (s.respond endWord) := by
  rw [exec_fpGet, if_neg h]

/-- Settles O31: the row `FP.GET` by its word, and its equation inside the text and at its end. -/
theorem fpGetReturnsTheNextTextByte : Obligations.FpGetReturnsTheNextTextByte :=
  ⟨decode_matchWord .fpGet, fun _ => ⟨fun _ => exec_fpGet_of_lt, exec_fpGet_of_end⟩⟩

/-- Settles O32: the rows `FP.RXCRC` and `FP.CALC` by their words, and their equations. -/
theorem fpRxcrcAndFpCalcReturnTheChecksums : Obligations.FpRxcrcAndFpCalcReturnTheChecksums :=
  ⟨decode_matchWord .fpRxcrc, decode_matchWord .fpCalc, fun s => ⟨exec_fpRxcrc s, exec_fpCalc s⟩⟩

end Sys2Proof.Machine
end

section
/-! The system commands (R200 to R202): each one's word, and its next state; the reserved words beside `NOP`, the bits of
`ERR` that no command but `SYS.RST` clears, and the word in which `SYS.ERR` reads them. -/

namespace Sys2Proof

/-- R73: a format-`N` row's opcode over an operand that is not zero is reserved. -/
theorem decode_join_of_ne_zero {o : Opcode} {b : Byte} (h : o.format = .n) (hb : b ≠ 0) :
    decode ((o.code.zeroExtend 16 <<< 8) ||| b.zeroExtend 16) = .error (.lowByteNotZero o b) := by
  rw [decode, opField_join, opcodeOf_code, argField_join]
  simp only [h, if_neg hb]

end Sys2Proof

namespace Sys2Proof.Machine

/-! ### `NOP` -/

/-- A byte alone is the opcode of `NOP` over that byte. -/
theorem decode_zeroExtend_of_ne_zero {b : Byte} (hb : b ≠ 0) :
    decode (b.zeroExtend 16) = .error (.lowByteNotZero .nop b) := by
  have hjoin : (Opcode.nop.code.zeroExtend 16 <<< 8) ||| b.zeroExtend 16 = b.zeroExtend 16 := BitVec.zero_or
  rw [← hjoin, decode_join_of_ne_zero rfl hb]

/-- Settles O1: the row `NOP` by its word, its neighbours as its opcode over a non-zero byte, and its equation. -/
theorem nopReturnsZeroAndChangesNothing : Obligations.NopReturnsZeroAndChangesNothing :=
  ⟨decode_matchWord .nop, fun _ hb => ⟨_, decode_zeroExtend_of_ne_zero hb⟩, exec_nop⟩

/-! ### `SYS.RST` -/

/-- R32: a command other than `SYS.RST` joins its error bits to those of `ERR`, so none is lost. -/
theorem exec_keeps_err {i : Instr} {s t : State} (hrst : i ≠ .sysRst) (h : exec i s = .next t) :
    s.err ||| t.err = t.err := by
  obtain ⟨-, herr, -⟩ := errBitsAreSticky
  rw [herr i s t hrst h, BitVec.or_assoc, ← BitVec.or_assoc, BitVec.or_self]

/-- Settles O2: the row `SYS.RST` by its word; the four clears leave every register of R39 but `TX` at its reset value;
the other commands keep the bits of `ERR`. -/
theorem sysRstIsResetButForTx : Obligations.SysRstIsResetButForTx :=
  ⟨decode_matchWord .sysRst, exec_sysRst, fun _ _ _ => exec_keeps_err⟩

/-! ### `SYS.ERR` -/

/-- R87: bits 2:0 of the `SYS.ERR` word are those of `ERR`. -/
theorem State.getLsbD_errWord (s : State) {i : Nat} (hi : i < 3) : s.errWord.getLsbD i = s.err.getLsbD i := by
  have h16 : i < 16 := by omega
  simp [State.errWord, h16]

/-- R87: bits 15:3 of the `SYS.ERR` word are zero. -/
theorem State.errWord_toNat_le (s : State) : s.errWord.toNat ≤ 7 := by
  have hword : s.errWord.toNat = s.err.toNat := BitVec.toNat_setWidth_of_le (by decide)
  have herr : s.err.toNat < 2 ^ 3 := s.err.isLt
  omega

/-- Settles O3: the row `SYS.ERR` by its word, its equation, and the layout of its response. -/
theorem sysErrReadsTheStickyBits : Obligations.SysErrReadsTheStickyBits :=
  ⟨decode_matchWord .sysErr, fun s => ⟨s.errWord, exec_sysErr s, s.getLsbD_errWord (by decide),
    s.getLsbD_errWord (by decide), s.getLsbD_errWord (by decide), s.errWord_toNat_le⟩⟩

end Sys2Proof.Machine
end

section
/-! Reserved words (R75, R213): they are the words of no row of R74, told by the opcode and the low byte; each does
`error(ILL)` and nothing else. -/

namespace Sys2Proof

/-- R73: a word that is no row's decodes to no command. -/
theorem decode_error_iff_no_row (w : Word) :
    (∃ r, decode w = .error r) ↔ ∀ o : Opcode, ¬ (opField w = o.code ∧ (o.format = .n → argField w = 0)) := by
  obtain ⟨-, hreserved, -⟩ := decodingIsByMaskAndMatch
  rw [← hreserved w]
  exact forall_congr' fun o => not_congr (and_maskWord_eq_matchWord_iff w o)

/-- R75: the two kinds of reserved word. No two rows share an opcode, so a low byte that one row refuses, no other
row takes. -/
theorem decode_error_iff (w : Word) :
    (∃ r, decode w = .error r) ↔
      (∀ o : Opcode, o.code ≠ opField w) ∨ ∃ o : Opcode, o.code = opField w ∧ o.format = .n ∧ argField w ≠ 0 := by
  rw [decode_error_iff_no_row]
  constructor
  · intro hnoRow
    by_cases hop : ∃ o : Opcode, o.code = opField w
    case pos =>
      obtain ⟨o, ho⟩ := hop
      have harg : ¬ (o.format = .n → argField w = 0) := fun harg => hnoRow o ⟨ho.symm, harg⟩
      exact .inr ⟨o, ho, Classical.not_imp.1 harg⟩
    case neg => exact .inl (not_exists.1 hop)
  · rintro (hunknown | ⟨o, ho, hformat, harg⟩) o' ⟨ho', harg'⟩
    · exact hunknown o' ho'.symm
    · obtain rfl : o = o' := Opcode.code_injective (ho.trans ho')
      exact harg (harg' hformat)

end Sys2Proof

namespace Sys2Proof.Machine

/-- Settles O51: the reserved words by their fields, and the step on one as the equation of `error(ILL)`. -/
theorem reservedWordsAreIllegal : Obligations.ReservedWordsAreIllegal :=
  ⟨decode_error_iff, fun _ _ _ _ => step_of_reserved⟩

end Sys2Proof.Machine
end

section
/-! Decoding and encoding undo each other (R70, R73, R74, R77): a command's word is its row's match word, over the
operand where the format has one; so the commands number the words that decode. -/

namespace Sys2Proof

/-! ### A row's command, encoded -/

theorem encode_instr_of_format_n {o : Opcode} (h : o.format = .n) (arg : Byte) : encode (o.instr arg) = o.matchWord := by
  simp [encode, Opcode.instr_operand, Opcode.matchWord, h]

theorem encode_instr_of_format_a {o : Opcode} (h : o.format = .a) (arg : Byte) :
    encode (o.instr arg) = o.matchWord ||| arg.zeroExtend 16 := by
  simp [encode, Opcode.instr_operand, Opcode.matchWord, h]

/-! ### Both directions -/

/-- Every command is its row's, on its own operand. -/
theorem decode_encode (i : Instr) : decode (encode i) = .ok i := by
  cases i with
  | crcUpd b => exact decode_matchWord_or (o := .crcUpd) rfl b
  | tblRd b => exact decode_matchWord_or (o := .tblRd) rfl b
  | fbByte b => exact decode_matchWord_or (o := .fbByte) rfl b
  | fpPush b => exact decode_matchWord_or (o := .fpPush) rfl b
  | nop => exact decode_matchWord .nop
  | sysRst => exact decode_matchWord .sysRst
  | sysErr => exact decode_matchWord .sysErr
  | crcClr => exact decode_matchWord .crcClr
  | crcRd => exact decode_matchWord .crcRd
  | fbStart => exact decode_matchWord .fbStart
  | fbEnd => exact decode_matchWord .fbEnd
  | fpRst => exact decode_matchWord .fpRst
  | fpEos => exact decode_matchWord .fpEos
  | fpStat => exact decode_matchWord .fpStat
  | fpGet => exact decode_matchWord .fpGet
  | fpRxcrc => exact decode_matchWord .fpRxcrc
  | fpCalc => exact decode_matchWord .fpCalc

/-- Settles O57: command by command, by the word of its row. -/
theorem decodeOfEncodeIsTheCommand : Obligations.DecodeOfEncodeIsTheCommand :=
  fun i _ => decode_encode i

/-- Settles O58: the word matches the row of its command, so it is the row's match word over its own low byte, which is
zero where the format has no operand. -/
theorem encodeOfDecodeIsTheWord : Obligations.EncodeOfDecodeIsTheWord := by
  intro w i hdecode
  have hmatch := and_maskWord_of_decode hdecode
  obtain ⟨hop, harg⟩ := (and_maskWord_eq_matchWord_iff w _).1 hmatch
  have hinstr : i = i.opcode.instr (argField w) := Except.ok.inj (hdecode.symm.trans (decode_of_and_maskWord hmatch))
  rw [hinstr]
  cases hformat : i.opcode.format with
  | a => rw [encode_instr_of_format_a hformat, Opcode.matchWord, ← hop, fields_join]
  | n =>
    rw [encode_instr_of_format_n hformat]
    exact ((eq_shiftLeft_iff w _).2 ⟨hop, harg hformat⟩).symm

theorem encode_injective : Function.Injective encode := fun i j h =>
  Except.ok.inj (by rw [← decode_encode i, h, decode_encode])

theorem exists_decode_iff_exists_encode (w : Word) : (∃ i, decode w = .ok i) ↔ ∃ i, encode i = w :=
  ⟨fun ⟨i, hi⟩ => ⟨i, encodeOfDecodeIsTheWord w i hi⟩, fun ⟨i, hi⟩ => ⟨i, hi ▸ decode_encode i⟩⟩

/-! ### Counting the commands -/

/-- The commands of one row of R74: one, or one for each operand. -/
def Opcode.commands (o : Opcode) : List Instr :=
  match o.format with
  | .n => [o.instr 0]
  | .a => (List.finRange 256).map (fun k => o.instr (BitVec.ofFin k))

/-- The commands of every row of R74. -/
def Instr.all : List Instr := Opcode.all.flatMap Opcode.commands

theorem Opcode.opcode_of_mem_commands {o : Opcode} {i : Instr} (h : i ∈ o.commands) : i.opcode = o := by
  unfold Opcode.commands at h
  split at h
  · rw [List.mem_singleton.1 h, Opcode.instr_opcode]
  · obtain ⟨k, -, rfl⟩ := List.mem_map.1 h
    exact Opcode.instr_opcode _ o

theorem Opcode.mem_commands_opcode (i : Instr) : i ∈ i.opcode.commands := by
  have operand (b : Byte) (o : Opcode) : o.instr b ∈ (List.finRange 256).map fun k => o.instr (BitVec.ofFin k) :=
    List.mem_map.2 ⟨b.toFin, List.mem_finRange _, rfl⟩
  cases i with
  | crcUpd b => exact operand b .crcUpd
  | tblRd b => exact operand b .tblRd
  | fbByte b => exact operand b .fbByte
  | fpPush b => exact operand b .fpPush
  | _ => exact List.mem_singleton.2 rfl

/-- A row's operands give different commands. -/
theorem Opcode.nodup_commands (o : Opcode) : o.commands.Nodup := by
  unfold Opcode.commands
  split
  next => exact List.nodup_singleton _
  next hformat =>
    refine (List.nodup_finRange 256).map fun k k' h => ?_
    have hoperand := congrArg Instr.operand h
    simpa [Opcode.instr_operand, hformat] using hoperand

theorem Opcode.mem_all (o : Opcode) : o ∈ Opcode.all := by
  cases o <;> decide

theorem Instr.mem_all (i : Instr) : i ∈ Instr.all :=
  List.mem_flatMap.2 ⟨i.opcode, Opcode.mem_all _, Opcode.mem_commands_opcode i⟩

theorem Instr.nodup_all : Instr.all.Nodup := by
  have hrows : Opcode.all.Nodup := by decide
  refine List.nodup_flatMap.2 ⟨fun o _ => o.nodup_commands, hrows.imp fun hne i hi hi' => hne ?_⟩
  rw [← Opcode.opcode_of_mem_commands hi, Opcode.opcode_of_mem_commands hi']

/-- Thirteen rows without operand, four with 256 each. -/
theorem Instr.length_all : Instr.all.length = 1037 := by
  simp [Instr.all, Opcode.all, Opcode.commands, Opcode.format]

/-- Settles O54: the words of all commands, which are different since `encode` is injective. -/
theorem commandWordsAreCounted : Obligations.CommandWordsAreCounted := by
  refine ⟨Instr.all.map encode, Instr.nodup_all.map encode_injective, by rw [List.length_map, Instr.length_all],
    fun w => ?_⟩
  rw [exists_decode_iff_exists_encode, List.mem_map]
  exact ⟨fun ⟨i, _, hi⟩ => ⟨i, hi⟩, fun ⟨i, hi⟩ => ⟨i, i.mem_all, hi⟩⟩

/-- Settles O52: seven fixed words, evaluated. -/
theorem writtenWordsDecode : Obligations.WrittenWordsDecode := by
  unfold Obligations.WrittenWordsDecode
  decide

end Sys2Proof
end

section
/-! The units (R245): every command completes; what the commands of each unit may write, and what they depend on. From
these two facts, commands of different units commute. -/

namespace Sys2Proof.Machine

/-! ### Completion -/

theorem exec_completes (i : Instr) (s : State) : ∃ t, exec i s = .next t := by
  cases i with
  | fbStart => cases h : s.fbSt with
    | idle => exact ⟨_, exec_fbStart_of_idle h⟩
    | body => exact ⟨_, exec_fbStart_of_body h⟩
  | fbByte b => cases h : s.fbSt with
    | idle => exact ⟨_, exec_fbByte_of_idle b h⟩
    | body => exact ⟨_, exec_fbByte_of_body b h⟩
  | fbEnd => cases h : s.fbSt with
    | idle => exact ⟨_, exec_fbEnd_of_idle h⟩
    | body => exact ⟨_, exec_fbEnd_of_body h⟩
  | fpPush b => exact ⟨_, exec_fpPush b s⟩
  | fpEos => exact ⟨_, exec_fpEos s⟩
  | fpGet => exact ⟨_, exec_fpGet s⟩
  | _ => exact ⟨_, rfl⟩

theorem runCommands_completes (commands : List Instr) (s : State) : ∃ t, runCommands commands s = .next t := by
  induction commands generalizing s with
  | nil => exact ⟨s, rfl⟩
  | cons i rest ih =>
    obtain ⟨t, ht⟩ := exec_completes i s
    rw [runCommands_cons rest ht]
    exact ih t

theorem runWord_of_ok {w : Word} {i : Instr} (h : decode w = .ok i) (s : State) : runWord w s = exec i s := by
  rw [runWord, h]

theorem step_of_inbox_nil {s : State} (h : s.inbox = []) : step s = .next s.idle := by
  simp [step, State.takeInput_of_nil h]

theorem step_of_command {s : State} {w : Word} {rest : List HostInput} {i : Instr} (h : s.inbox = .command w :: rest)
    (hw : decode w = .ok i) : step s = exec i { s with inbox := rest } := by
  rw [step_of_inbox_cons h, runInput, runWord_of_ok hw]

theorem step_completes (s : State) : ∃ t, step s = .next t := by
  cases hin : s.inbox with
  | nil => exact ⟨_, step_of_inbox_nil hin⟩
  | cons x rest =>
    cases x with
    | hardwareReset => exact ⟨_, step_of_hardwareReset hin⟩
    | command w =>
      cases hw : decode w with
      | ok i => rw [step_of_command hin hw]; exact exec_completes i _
      | error r => exact ⟨_, step_of_reserved hin hw⟩

/-- Settles O47: every command, then every input of a step. -/
theorem everyStepCompletes : Obligations.EveryStepCompletes := ⟨exec_completes, step_completes⟩

/-- Settles O50: the idle step. -/
theorem nothingHappensUnasked : Obligations.NothingHappensUnasked := fun _ => step_of_inbox_nil

theorem wordOfBits_toNat (w : Word) : wordOfBits 16 w.toNat = w := by
  rw [wordOfBits, Nat.mod_eq_of_lt w.isLt, BitVec.ofNat_toNat, BitVec.setWidth_eq]

/-- Settles O49: the step on a command word; `withFetchWord` puts one before everything waiting. -/
theorem stepRunsTheDecodedCommand : Obligations.StepRunsTheDecodedCommand := by
  refine ⟨fun s w rest i => step_of_command, fun s w i hw => ?_⟩
  have hin : (s.withFetchWord 16 w.toNat).inbox = .command w :: s.inbox := by
    rw [State.withFetchWord, wordOfBits_toNat]
  rw [step_of_command hin hw]
  rfl

/-- Settles O46: each answers the word it reads off registers that it does not write. -/
theorem readsMayBeRepeated : Obligations.ReadsMayBeRepeated := by
  rintro i s (rfl | rfl | rfl | ⟨k, rfl⟩ | rfl | rfl | rfl)
  · exact ⟨_, exec_nop s, exec_nop _⟩
  · exact ⟨_, exec_sysErr s, exec_sysErr _⟩
  · exact ⟨_, exec_crcRd s, exec_crcRd _⟩
  · exact ⟨_, exec_tblRd k s, exec_tblRd k _⟩
  · exact ⟨_, exec_fpStat s, exec_fpStat _⟩
  · exact ⟨_, exec_fpRxcrc s, exec_fpRxcrc _⟩
  · exact ⟨_, exec_fpCalc s, exec_fpCalc _⟩

/-! ### What the commands of each unit may write -/

/-- The two reads of the system; `SYS.RST` is the one command that writes other units. -/
theorem exec_system_writes {i : Instr} {s t : State} (hunit : unitOf i = .system) (hrst : i ≠ .sysRst)
    (h : exec i s = .next t) : ∃ w, t = s.respond w := by
  cases i with
  | nop => exact ⟨_, (Host.Outcome.next.inj h).symm⟩
  | sysErr => exact ⟨_, (Host.Outcome.next.inj h).symm⟩
  | sysRst => exact absurd rfl hrst
  | _ => simp [unitOf] at hunit

theorem exec_crcEngine_writes {i : Instr} {s t : State} (hunit : unitOf i = .crcEngine) (h : exec i s = .next t) :
    ∃ crc ne w, t = { s with crc := crc, ne := ne, resp := some w } := by
  cases i with
  | crcClr | crcUpd | crcRd | tblRd => exact ⟨_, _, _, (Host.Outcome.next.inj h).symm⟩
  | _ => simp [unitOf] at hunit

theorem exec_builder_writes {i : Instr} {s t : State} (hunit : unitOf i = .builder) (h : exec i s = .next t) :
    ∃ fbSt fbCrc tx err w, t = { s with fbSt := fbSt, fbCrc := fbCrc, tx := tx, err := err, resp := some w } := by
  cases i with
  | fbStart =>
    cases hst : s.fbSt with
    | idle => cases (exec_fbStart_of_idle hst).symm.trans h; exact ⟨_, _, _, _, _, rfl⟩
    | body => cases (exec_fbStart_of_body hst).symm.trans h; exact ⟨_, _, _, _, _, rfl⟩
  | fbByte b =>
    cases hst : s.fbSt with
    | idle => cases (exec_fbByte_of_idle b hst).symm.trans h; exact ⟨_, _, _, _, _, rfl⟩
    | body => cases (exec_fbByte_of_body b hst).symm.trans h; exact ⟨_, _, _, _, _, rfl⟩
  | fbEnd =>
    cases hst : s.fbSt with
    | idle => cases (exec_fbEnd_of_idle hst).symm.trans h; exact ⟨_, _, _, _, _, rfl⟩
    | body => cases (exec_fbEnd_of_body hst).symm.trans h; exact ⟨_, _, _, _, _, rfl⟩
  | _ => simp [unitOf] at hunit

/-- What a verdict may write, as one record. -/
theorem State.latch_writes (s : State) (v : Verdict) :
    ∃ res lo hi rp rxcrc calcCrc,
      s.latch v = { s with res := res, lo := lo, hi := hi, rp := rp, rxcrc := rxcrc, calcCrc := calcCrc } := by
  cases v <;> exact ⟨_, _, _, _, _, _, rfl⟩

theorem exec_parser_writes {i : Instr} {s t : State} (hunit : unitOf i = .parser) (h : exec i s = .next t) :
    ∃ acc eosf res lo hi rp rxcrc calcCrc err w,
      t = { s with
        acc := acc, eosf := eosf, res := res, lo := lo, hi := hi, rp := rp, rxcrc := rxcrc, calcCrc := calcCrc,
        err := err, resp := some w } := by
  cases i with
  | fpRst | fpStat | fpRxcrc | fpCalc => exact ⟨_, _, _, _, _, _, _, _, _, _, (Host.Outcome.next.inj h).symm⟩
  | fpPush b =>
    cases (exec_fpPush b s).symm.trans h
    obtain ⟨_, _, _, _, _, _, hlatch⟩ := (s.append b).latch_writes (classify s.cfg (s.acc ++ [b]))
    rw [hlatch]
    split
    · exact ⟨_, _, _, _, _, _, _, _, _, _, rfl⟩
    · split <;> exact ⟨_, _, _, _, _, _, _, _, _, _, rfl⟩
  | fpEos =>
    cases (exec_fpEos s).symm.trans h
    obtain ⟨_, _, _, _, _, _, hlatch⟩ := { s with eosf := true }.latch_writes (classifyEos s.cfg s.acc)
    rw [hlatch]
    split <;> exact ⟨_, _, _, _, _, _, _, _, _, _, rfl⟩
  | fpGet =>
    cases (exec_fpGet s).symm.trans h
    split <;> exact ⟨_, _, _, _, _, _, _, _, _, _, rfl⟩
  | _ => simp [unitOf] at hunit

theorem exec_sameOutside {i : Instr} {s t : State} (h : exec i s = .next t) : SameOutside s t := by
  by_cases hrst : i = .sysRst
  · subst hrst
    cases (exec_sysRst s).symm.trans h
    exact ⟨rfl, rfl⟩
  cases hunit : unitOf i with
  | system => obtain ⟨_, rfl⟩ := exec_system_writes hunit hrst h; exact ⟨rfl, rfl⟩
  | crcEngine => obtain ⟨_, _, _, rfl⟩ := exec_crcEngine_writes hunit h; exact ⟨rfl, rfl⟩
  | builder => obtain ⟨_, _, _, _, _, rfl⟩ := exec_builder_writes hunit h; exact ⟨rfl, rfl⟩
  | parser => obtain ⟨_, _, _, _, _, _, _, _, _, _, rfl⟩ := exec_parser_writes hunit h; exact ⟨rfl, rfl⟩

theorem exec_cfg {i : Instr} {s t : State} (h : exec i s = .next t) : t.cfg = s.cfg :=
  (exec_sameOutside h).1

theorem exec_sameUnit {i : Instr} {s t : State} (hrst : i ≠ .sysRst) (h : exec i s = .next t) {u : BlockUnit}
    (hsys : u ≠ .system) (hu : u ≠ unitOf i) : SameUnit u s t := by
  cases hunit : unitOf i with
  | system =>
    obtain ⟨_, rfl⟩ := exec_system_writes hunit hrst h
    cases u with
    | system => exact absurd rfl hsys
    | crcEngine => exact ⟨rfl, rfl⟩
    | builder => exact ⟨rfl, rfl, rfl⟩
    | parser => exact ⟨rfl, rfl, rfl, rfl, rfl, rfl, rfl, rfl⟩
  | crcEngine =>
    obtain ⟨_, _, _, rfl⟩ := exec_crcEngine_writes hunit h
    cases u with
    | system => exact absurd rfl hsys
    | crcEngine => exact absurd hunit.symm hu
    | builder => exact ⟨rfl, rfl, rfl⟩
    | parser => exact ⟨rfl, rfl, rfl, rfl, rfl, rfl, rfl, rfl⟩
  | builder =>
    obtain ⟨_, _, _, _, _, rfl⟩ := exec_builder_writes hunit h
    cases u with
    | system => exact absurd rfl hsys
    | crcEngine => exact ⟨rfl, rfl⟩
    | builder => exact absurd hunit.symm hu
    | parser => exact ⟨rfl, rfl, rfl, rfl, rfl, rfl, rfl, rfl⟩
  | parser =>
    obtain ⟨_, _, _, _, _, _, _, _, _, _, rfl⟩ := exec_parser_writes hunit h
    cases u with
    | system => exact absurd rfl hsys
    | crcEngine => exact ⟨rfl, rfl⟩
    | builder => exact ⟨rfl, rfl, rfl⟩
    | parser => exact absurd hunit.symm hu

/-- Settles O43: the four inversion lemmas, unit by unit. -/
theorem commandsWriteOnlyTheirUnit : Obligations.CommandsWriteOnlyTheirUnit :=
  fun _ _ _ h => ⟨exec_sameOutside h, fun hrst _ => exec_sameUnit hrst h⟩

/-! ### What the commands of each unit depend on -/

theorem SameParser.refl (s : State) : SameParser s s := ⟨rfl, rfl, rfl, rfl, rfl, rfl, rfl, rfl⟩

theorem SameParser.trans {s t u : State} (h : SameParser s t) (h' : SameParser t u) : SameParser s u := by
  obtain ⟨hacc, heosf, hres, hlo, hhi, hrp, hrx, hcalc⟩ := h
  obtain ⟨hacc', heosf', hres', hlo', hhi', hrp', hrx', hcalc'⟩ := h'
  exact ⟨hacc'.trans hacc, heosf'.trans heosf, hres'.trans hres, hlo'.trans hlo, hhi'.trans hhi, hrp'.trans hrp,
    hrx'.trans hrx, hcalc'.trans hcalc⟩

theorem SameParser.symm {s t : State} (h : SameParser s t) : SameParser t s := by
  obtain ⟨hacc, heosf, hres, hlo, hhi, hrp, hrx, hcalc⟩ := h
  exact ⟨hacc.symm, heosf.symm, hres.symm, hlo.symm, hhi.symm, hrp.symm, hrx.symm, hcalc.symm⟩

theorem SameParser.statw {s t : State} (h : SameParser s t) (drop : Bool) : t.statw drop = s.statw drop := by
  obtain ⟨-, heosf, hres, -⟩ := h
  rw [State.statw, heosf, hres]
  rfl

/-- A verdict writes the same into the same registers. -/
theorem SameParser.latch {s t : State} (h : SameParser s t) (v : Verdict) : SameParser (s.latch v) (t.latch v) := by
  obtain ⟨hacc, heosf, hres, hlo, hhi, hrp, hrx, hcalc⟩ := h
  cases v with
  | pending => exact ⟨hacc, heosf, hres, hlo, hhi, hrp, hrx, hcalc⟩
  | ack | nak | crcFormatError | noData => exact ⟨hacc, heosf, rfl, hlo, hhi, hrp, hrx, hcalc⟩
  | crcMismatchError v c => exact ⟨hacc, heosf, rfl, hlo, hhi, hrp, rfl, rfl⟩
  | framedText lo hi v c => exact ⟨hacc, heosf, rfl, rfl, rfl, rfl, rfl, rfl⟩
  | rawText lo hi => exact ⟨hacc, heosf, rfl, rfl, rfl, rfl, hrx, hcalc⟩

theorem SameParser.append {s t : State} (h : SameParser s t) (b : Byte) : SameParser (s.append b) (t.append b) := by
  obtain ⟨hacc, hrest⟩ := h
  exact ⟨congrArg (· ++ [b]) hacc, hrest⟩

theorem SameParser.setEosf {s t : State} (h : SameParser s t) :
    SameParser { s with eosf := true } { t with eosf := true } := by
  obtain ⟨hacc, -, hrest⟩ := h
  exact ⟨hacc, rfl, hrest⟩

theorem SameParser.setRes {s t : State} (h : SameParser s t) (r : ResultCode) :
    SameParser { s with res := r } { t with res := r } := by
  obtain ⟨hacc, heosf, -, hrest⟩ := h
  exact ⟨hacc, heosf, rfl, hrest⟩

/-- `FP.PUSH` in two states whose parsers are the same, case by case. -/
theorem exec_fpPush_sameParser {s s' t t' : State} {b : Byte} (hcfg : s'.cfg = s.cfg) (hsame : SameParser s s')
    (h : exec (.fpPush b) s = .next t) (h' : exec (.fpPush b) s' = .next t') :
    SameParser t t' ∧ t'.resp = t.resp := by
  have hacc : s'.acc = s.acc := hsame.1
  have hres : s'.res = s.res := hsame.2.2.1
  by_cases hpending : s.res = .pending
  · by_cases hfull : s.cfg.accMax = some s.acc.length
    · cases (exec_fpPush_of_full b hpending hfull).symm.trans h
      cases (exec_fpPush_of_full b (hres.trans hpending) (by rw [hcfg, hacc]; exact hfull)).symm.trans h'
      have hover := hsame.setRes .overflow
      exact ⟨hover, congrArg some (hover.statw true)⟩
    · cases (exec_fpPush_of_room b hpending hfull).symm.trans h
      cases (exec_fpPush_of_room b (hres.trans hpending) (by rw [hcfg, hacc]; exact hfull)).symm.trans h'
      rw [hcfg, hacc]
      have hlatch := (hsame.append b).latch (classify s.cfg (s.acc ++ [b]))
      exact ⟨hlatch, congrArg some (hlatch.statw false)⟩
  · cases (exec_fpPush_of_terminal b hpending).symm.trans h
    cases (exec_fpPush_of_terminal b (hres ▸ hpending)).symm.trans h'
    exact ⟨hsame, congrArg some (hsame.statw true)⟩

/-- `FP.EOS` in two states whose parsers are the same, case by case. -/
theorem exec_fpEos_sameParser {s s' t t' : State} (hcfg : s'.cfg = s.cfg) (hsame : SameParser s s')
    (h : exec .fpEos s = .next t) (h' : exec .fpEos s' = .next t') : SameParser t t' ∧ t'.resp = t.resp := by
  have hacc : s'.acc = s.acc := hsame.1
  have hres : s'.res = s.res := hsame.2.2.1
  by_cases hpending : s.res = .pending
  · cases (exec_fpEos_of_pending hpending).symm.trans h
    cases (exec_fpEos_of_pending (hres.trans hpending)).symm.trans h'
    have hverdict : classifyEos s'.cfg s'.acc = classifyEos s.cfg s.acc := by rw [hcfg, hacc]
    rw [hverdict]
    have hlatch := hsame.setEosf.latch (classifyEos s.cfg s.acc)
    exact ⟨hlatch, congrArg some (hlatch.statw false)⟩
  · cases (exec_fpEos_of_terminal hpending).symm.trans h
    cases (exec_fpEos_of_terminal (hres ▸ hpending)).symm.trans h'
    exact ⟨hsame, congrArg some (hsame.statw true)⟩

/-- `FP.GET` in two states whose parsers are the same. -/
theorem exec_fpGet_sameParser {s s' t t' : State} (hsame : SameParser s s') (h : exec .fpGet s = .next t)
    (h' : exec .fpGet s' = .next t') : SameParser t t' ∧ t'.resp = t.resp := by
  obtain ⟨hacc, heosf, hres, hlo, hhi, hrp, hrx, hcalc⟩ := id hsame
  have hbyte : s'.accByte s'.rp = s.accByte s.rp := by rw [State.accByte, State.accByte, hacc, hrp]
  by_cases hlt : s.rp < s.hi
  · rw [exec_fpGet, if_pos hlt] at h
    rw [exec_fpGet, if_pos (by omega), hbyte] at h'
    cases h
    cases h'
    exact ⟨⟨hacc, heosf, hres, hlo, hhi, congrArg (· + 1) hrp, hrx, hcalc⟩, rfl⟩
  · cases (exec_fpGet_of_end hlt).symm.trans h
    cases (exec_fpGet_of_end (by omega)).symm.trans h'
    exact ⟨hsame, rfl⟩

theorem exec_parser_sameParser {i : Instr} {s s' t t' : State} (hunit : unitOf i = .parser) (hcfg : s'.cfg = s.cfg)
    (hsame : SameParser s s') (h : exec i s = .next t) (h' : exec i s' = .next t') :
    SameParser t t' ∧ t'.resp = t.resp := by
  cases i with
  | fpPush b => exact exec_fpPush_sameParser hcfg hsame h h'
  | fpEos => exact exec_fpEos_sameParser hcfg hsame h h'
  | fpGet => exact exec_fpGet_sameParser hsame h h'
  | fpRst => cases h; cases h'; exact ⟨SameParser.refl s.clearParser, rfl⟩
  | fpStat => cases h; cases h'; exact ⟨hsame, congrArg some (hsame.statw false)⟩
  | fpRxcrc =>
    cases h; cases h'
    obtain ⟨-, -, -, -, -, -, hrx, -⟩ := id hsame
    exact ⟨hsame, congrArg some hrx⟩
  | fpCalc =>
    cases h; cases h'
    obtain ⟨-, -, -, -, -, -, -, hcalc⟩ := id hsame
    exact ⟨hsame, congrArg some hcalc⟩
  | _ => simp [unitOf] at hunit

theorem exec_crcEngine_sameCrcEngine {i : Instr} {s s' t t' : State} (hunit : unitOf i = .crcEngine)
    (hsame : SameCrcEngine s s') (h : exec i s = .next t) (h' : exec i s' = .next t') :
    SameCrcEngine t t' ∧ t'.resp = t.resp := by
  obtain ⟨hcrc, hne⟩ := hsame
  cases i with
  | crcClr => cases h; cases h'; exact ⟨⟨rfl, rfl⟩, rfl⟩
  | crcUpd b => cases h; cases h'; exact ⟨⟨congrArg (upd · b) hcrc, rfl⟩, rfl⟩
  | crcRd =>
    cases (exec_crcRd s).symm.trans h
    cases (exec_crcRd s').symm.trans h'
    rw [hcrc, hne]
    exact ⟨⟨hcrc, hne⟩, rfl⟩
  | tblRd k => cases h; cases h'; exact ⟨⟨hcrc, hne⟩, rfl⟩
  | _ => simp [unitOf] at hunit

theorem exec_builder_sameBuilder {i : Instr} {s s' t t' : State} (hunit : unitOf i = .builder)
    (hsame : SameBuilder s s') (h : exec i s = .next t) (h' : exec i s' = .next t') :
    SameBuilder t t' ∧ t'.resp = t.resp := by
  obtain ⟨hst, hcrc, htx⟩ := id hsame
  cases i with
  | fbStart =>
    cases hs : s.fbSt with
    | idle =>
      cases (exec_fbStart_of_idle hs).symm.trans h
      cases (exec_fbStart_of_idle (hst.trans hs)).symm.trans h'
      exact ⟨⟨rfl, rfl, congrArg (· ++ [stx]) htx⟩, rfl⟩
    | body =>
      cases (exec_fbStart_of_body hs).symm.trans h
      cases (exec_fbStart_of_body (hst.trans hs)).symm.trans h'
      exact ⟨hsame, rfl⟩
  | fbByte b =>
    cases hs : s.fbSt with
    | idle =>
      cases (exec_fbByte_of_idle b hs).symm.trans h
      cases (exec_fbByte_of_idle b (hst.trans hs)).symm.trans h'
      exact ⟨hsame, rfl⟩
    | body =>
      cases (exec_fbByte_of_body b hs).symm.trans h
      cases (exec_fbByte_of_body b (hst.trans hs)).symm.trans h'
      exact ⟨⟨hst, congrArg (upd · b) hcrc, congrArg (· ++ [b]) htx⟩, rfl⟩
  | fbEnd =>
    cases hs : s.fbSt with
    | idle =>
      cases (exec_fbEnd_of_idle hs).symm.trans h
      cases (exec_fbEnd_of_idle (hst.trans hs)).symm.trans h'
      exact ⟨hsame, rfl⟩
    | body =>
      cases (exec_fbEnd_of_body hs).symm.trans h
      cases (exec_fbEnd_of_body (hst.trans hs)).symm.trans h'
      rw [hcrc]
      exact ⟨⟨rfl, rfl, congrArg (· ++ [etx] ++ hex4 (upd s.fbCrc etx)) htx⟩, rfl⟩
  | _ => simp [unitOf] at hunit

/-- Settles O44: unit by unit. -/
theorem resultsDependOnTheirUnitAlone : Obligations.ResultsDependOnTheirUnitAlone := by
  intro i s s' t t' hsys hcfg hsame h h'
  cases hunit : unitOf i with
  | system => exact absurd hunit hsys
  | crcEngine => rw [hunit] at hsame; exact exec_crcEngine_sameCrcEngine hunit hsame h h'
  | builder => rw [hunit] at hsame; exact exec_builder_sameBuilder hunit hsame h h'
  | parser => rw [hunit] at hsame; exact exec_parser_sameParser hunit hcfg hsame h h'

/-! ### Commands of different units commute -/

/-- The bits of `ERR` that a command sets (R32). -/
def errorBits (i : Instr) (s : State) : BitVec 3 :=
  (if (i = .fbStart ∧ s.fbSt = .body) ∨ (unitOf i = .builder ∧ i ≠ .fbStart ∧ s.fbSt = .idle) then errSeq else 0) |||
    (if (∃ b, i = .fpPush b) ∧ s.res = .pending ∧ s.cfg.accMax = some s.acc.length then errOvf else 0)

theorem exec_err {i : Instr} {s t : State} (hrst : i ≠ .sysRst) (h : exec i s = .next t) :
    t.err = s.err ||| errorBits i s := by
  obtain ⟨-, herr, -⟩ := errBitsAreSticky
  rw [herr i s t hrst h, BitVec.or_assoc]
  rfl

theorem errorBits_of_ne {i : Instr} (s : State) (hbuilder : unitOf i ≠ .builder) (hparser : unitOf i ≠ .parser) :
    errorBits i s = 0 := by
  have hstart : i ≠ .fbStart := by rintro rfl; exact hbuilder rfl
  have hpush : ¬ ∃ b, i = .fpPush b := by rintro ⟨b, rfl⟩; exact hparser rfl
  simp [errorBits, hstart, hbuilder, hpush]

/-- The causes of an error lie in the command's own unit. -/
theorem errorBits_congr {i : Instr} {s s' : State} (hcfg : s'.cfg = s.cfg) (hsame : SameUnit (unitOf i) s s') :
    errorBits i s' = errorBits i s := by
  cases hunit : unitOf i with
  | system | crcEngine =>
    rw [errorBits_of_ne s (by simp [hunit]) (by simp [hunit]), errorBits_of_ne s' (by simp [hunit]) (by simp [hunit])]
  | builder =>
    rw [hunit] at hsame
    have hst : s'.fbSt = s.fbSt := hsame.1
    have hpush : ¬ ∃ b, i = .fpPush b := by rintro ⟨b, rfl⟩; cases hunit
    simp [errorBits, hst, hpush]
  | parser =>
    rw [hunit] at hsame
    obtain ⟨hacc, -, hres, -⟩ := hsame
    have hstart : i ≠ .fbStart := by rintro rfl; cases hunit
    simp [errorBits, hcfg, hacc, hres, hunit, hstart]

/-- A state is its units, its outside and its response. -/
theorem State.eq_of_sameUnit {s t : State} (hout : SameOutside s t) (hunits : ∀ u, SameUnit u s t) :
    { t with resp := none } = { s with resp := none } := by
  obtain ⟨hcfg, hin⟩ := hout
  have herr : t.err = s.err := hunits .system
  obtain ⟨hcrc, hne⟩ : SameCrcEngine s t := hunits .crcEngine
  obtain ⟨hst, hfbCrc, htx⟩ : SameBuilder s t := hunits .builder
  obtain ⟨hacc, heosf, hres, hlo, hhi, hrp, hrx, hcalc⟩ : SameParser s t := hunits .parser
  rw [hcfg, hin, herr, hcrc, hne, hst, hfbCrc, htx, hacc, heosf, hres, hlo, hhi, hrp, hrx, hcalc]

theorem SameUnit.trans {u : BlockUnit} {s t r : State} (h : SameUnit u s t) (h' : SameUnit u t r) : SameUnit u s r := by
  cases u with
  | system => exact Eq.trans h' h
  | crcEngine => exact ⟨h'.1.trans h.1, h'.2.trans h.2⟩
  | builder => exact ⟨h'.1.trans h.1, h'.2.1.trans h.2.1, h'.2.2.trans h.2.2⟩
  | parser => exact SameParser.trans h h'

theorem SameUnit.symm {u : BlockUnit} {s t : State} (h : SameUnit u s t) : SameUnit u t s := by
  cases u with
  | system => exact Eq.symm h
  | crcEngine => exact ⟨h.1.symm, h.2.symm⟩
  | builder => exact ⟨h.1.symm, h.2.1.symm, h.2.2.symm⟩
  | parser => exact SameParser.symm h

/-- Settles O45: each command finds its own unit as it was, the other leaves what it wrote alone, and the bits that the
two set in `ERR` are joined. -/
theorem unitsInterleaveInAnyOrder : Obligations.UnitsInterleaveInAnyOrder := by
  intro i j s a ab hi hj hij ha hab
  obtain ⟨b, hb⟩ := exec_completes j s
  obtain ⟨ba, hba⟩ := exec_completes i b
  have hirst : i ≠ .sysRst := by rintro rfl; exact hi rfl
  have hjrst : j ≠ .sysRst := by rintro rfl; exact hj rfl
  have hsa : SameUnit (unitOf j) s a := exec_sameUnit hirst ha hj hij.symm
  have hsb : SameUnit (unitOf i) s b := exec_sameUnit hjrst hb hi hij
  obtain ⟨hbab, hrespj⟩ := resultsDependOnTheirUnitAlone j s a b ab hj (exec_cfg ha) hsa hb hab
  obtain ⟨haba, hrespi⟩ := resultsDependOnTheirUnitAlone i s b a ba hi (exec_cfg hb) hsb ha hba
  have herr : ba.err = ab.err := by
    rw [exec_err hirst hba, exec_err hjrst hb, exec_err hjrst hab, exec_err hirst ha,
      errorBits_congr (exec_cfg hb) hsb, errorBits_congr (exec_cfg ha) hsa, BitVec.or_assoc, BitVec.or_assoc,
      BitVec.or_comm (errorBits j s)]
  refine ⟨b, ba, hb, hba, hrespj.symm, hrespi, State.eq_of_sameUnit ?outside fun u => ?unit⟩
  case outside =>
    obtain ⟨hcfga, hina⟩ := exec_sameOutside ha
    obtain ⟨hcfgab, hinab⟩ := exec_sameOutside hab
    obtain ⟨hcfgb, hinb⟩ := exec_sameOutside hb
    obtain ⟨hcfgba, hinba⟩ := exec_sameOutside hba
    exact ⟨by rw [hcfgba, hcfgb, hcfgab, hcfga], by rw [hinba, hinb, hinab, hina]⟩
  case unit =>
    by_cases hsys : u = .system
    · subst hsys; exact herr
    by_cases hui : u = unitOf i
    · subst hui
      exact ((exec_sameUnit hjrst hab hi hij).symm).trans haba
    by_cases huj : u = unitOf j
    · subst huj
      exact hbab.symm.trans (exec_sameUnit hirst hba hj hij.symm)
    · have hab' : SameUnit u s ab := (exec_sameUnit hirst ha hsys hui).trans (exec_sameUnit hjrst hab hsys huj)
      have hba' : SameUnit u s ba := (exec_sameUnit hjrst hb hsys huj).trans (exec_sameUnit hirst hba hsys hui)
      exact hab'.symm.trans hba'

/-! ### A latched verdict -/

theorem exec_sameParser_of_unit_ne {i : Instr} {s t : State} (hrst : i ≠ .sysRst) (hunit : unitOf i ≠ .parser)
    (h : exec i s = .next t) : SameParser s t :=
  exec_sameUnit (u := .parser) hrst h (by simp) (Ne.symm hunit)

/-- Settles O35: the other units' commands leave the parser alone; its own find a verdict and leave it, and `FP.GET` moves
`RP` at most. -/
theorem verdictIsNeverReplaced : Obligations.VerdictIsNeverReplaced := by
  intro i s t hres hfpRst hsysRst h
  have frozen : SameParser s t → t.res = s.res ∧ t.acc = s.acc ∧ t.eosf = s.eosf ∧ t.lo = s.lo ∧ t.hi = s.hi ∧
      t.rxcrc = s.rxcrc ∧ t.calcCrc = s.calcCrc ∧ (i ≠ .fpGet → t.rp = s.rp) :=
    fun ⟨hacc, heosf, hres, hlo, hhi, hrp, hrx, hcalc⟩ => ⟨hres, hacc, heosf, hlo, hhi, hrx, hcalc, fun _ => hrp⟩
  by_cases hunit : unitOf i = .parser
  · cases i with
    | fpRst => exact absurd rfl hfpRst
    | fpPush b => cases (exec_fpPush_of_terminal b hres).symm.trans h; exact frozen (SameParser.refl s)
    | fpEos => cases (exec_fpEos_of_terminal hres).symm.trans h; exact frozen (SameParser.refl s)
    | fpStat | fpRxcrc | fpCalc => cases h; exact frozen (SameParser.refl s)
    | fpGet =>
      rw [exec_fpGet] at h
      split at h
      · cases h; exact ⟨rfl, rfl, rfl, rfl, rfl, rfl, rfl, fun hget => absurd rfl hget⟩
      · cases h; exact frozen (SameParser.refl s)
    | _ => simp [unitOf] at hunit
  · exact frozen (exec_sameParser_of_unit_ne hsysRst hunit h)

/-! ### Several blocks -/

theorem stepBlock_eq_some_iff {k : Nat} {blocks bs : List State} :
    stepBlock k blocks = some bs ↔ ∃ s t, blocks[k]? = some s ∧ step s = .next t ∧ bs = blocks.set k t := by
  unfold stepBlock
  cases hs : blocks[k]? with
  | none => simp
  | some s =>
    obtain ⟨t, ht⟩ := step_completes s
    simp [ht, eq_comm]

/-- Settles O56: a step replaces one entry of the list, and two different entries may be replaced in either order. -/
theorem blocksShareNothing : Obligations.BlocksShareNothing := by
  intro blocks bs j k hne hj
  obtain ⟨s, s', hs, hstep, rfl⟩ := stepBlock_eq_some_iff.1 hj
  have hother : (blocks.set j s')[k]? = blocks[k]? := List.getElem?_set_ne hne
  refine ⟨hother, fun bs' hk => ?_⟩
  obtain ⟨u, u', hu, hstep', rfl⟩ := stepBlock_eq_some_iff.1 hk
  refine ⟨blocks.set k u', stepBlock_eq_some_iff.2 ⟨u, u', hother ▸ hu, hstep', rfl⟩,
    stepBlock_eq_some_iff.2 ⟨s, s', ?_, hstep, List.set_comm s' u' hne⟩⟩
  rw [List.getElem?_set_ne hne.symm, hs]

end Sys2Proof.Machine
end

section
/-! What bytes that follow can change (R152, R164): not the first ETX, and no verdict; and what one more byte makes of a
pending accumulator. -/

namespace Sys2Proof.Machine

/-! ### The first ETX -/

theorem firstEtx_lt_length {s : List Byte} {e : Nat} (h : firstEtx s = some e) : e < s.length := by
  obtain ⟨-, hetx, -⟩ := (firstEtx_eq_some_iff s e).1 h
  exact (List.getElem?_eq_some_iff.1 hetx).1

theorem one_le_firstEtx {s : List Byte} {e : Nat} (h : firstEtx s = some e) : 1 ≤ e :=
  ((firstEtx_eq_some_iff s e).1 h).1

/-- Below the length of the first part, the bytes that follow are not seen. -/
theorem firstEtx_append_iff {p : List Byte} (q : List Byte) {e : Nat} (he : e < p.length) :
    firstEtx (p ++ q) = some e ↔ firstEtx p = some e := by
  have hsame : ∀ j ≤ e, (p ++ q)[j]? = p[j]? := fun j hj => List.getElem?_append_left (by omega)
  simp only [firstEtx_eq_some_iff, hsame e le_rfl]
  refine and_congr_right fun _ => and_congr_right fun _ => forall_congr' fun j => forall_congr' fun _ =>
    forall_congr' fun hj => ?_
  rw [hsame j hj.le]

theorem firstEtx_append {p : List Byte} (q : List Byte) {e : Nat} (h : firstEtx p = some e) :
    firstEtx (p ++ q) = some e :=
  (firstEtx_append_iff q (firstEtx_lt_length h)).2 h

/-! ### The verdict -/

theorem crcField_append {p : List Byte} (q : List Byte) {e : Nat} (h : e + 5 ≤ p.length) :
    crcField (p ++ q) e = crcField p e := by
  rw [crcField, List.drop_append_of_le_length (by omega),
    List.take_append_of_le_length (by rw [List.length_drop]; omega)]
  rfl

theorem crcCovered_append {p : List Byte} (q : List Byte) {e : Nat} (h : e + 1 ≤ p.length) :
    crcCovered (p ++ q) e = crcCovered p e := by
  rw [crcCovered, List.drop_append_of_le_length (by omega),
    List.take_append_of_le_length (by rw [List.length_drop]; omega)]
  rfl

/-- The verdict on a complete frame sees nothing after its CRC field. -/
theorem classifyFrame_append (cfg : Config) {p : List Byte} (q : List Byte) {e : Nat} (h1 : 1 ≤ e)
    (h : e + 5 ≤ p.length) : classifyFrame cfg (p ++ q) e = classifyFrame cfg p e := by
  rw [classifyFrame, crcField_append q h, crcCovered_append q (by omega), trim_append cfg p q h1 (by omega)]
  rfl

theorem classify_append (cfg : Config) {p : List Byte} (q : List Byte) (h : classify cfg p ≠ .pending) :
    classify cfg (p ++ q) = classify cfg p := by
  have hhead {a : Byte} (h0 : p[0]? = some a) : (p ++ q)[0]? = some a := by
    rw [List.getElem?_append_left (List.getElem?_eq_some_iff.1 h0).1, h0]
  obtain ⟨h0, hp⟩ | ⟨h0, hp⟩ | ⟨h0, e, he, hlen, hp⟩ | ⟨-, -, -, hp⟩ := classify_cases cfg p
  · rw [hp, (classify_eq_ack_iff cfg _).2 (hhead h0)]
  · rw [hp, (classify_eq_nak_iff cfg _).2 (hhead h0)]
  · rw [hp]
    obtain ⟨hack, hnak, hpending⟩ := classifyFrame_ne cfg p e
    exact (classify_eq_iff_of_frame cfg _ hack hnak hpending).2
      ⟨hhead h0, e, firstEtx_append q he, by rw [List.length_append]; omega,
        classifyFrame_append cfg q (one_le_firstEtx he) hlen⟩
  · exact absurd hp h

/-- Settles O24: the first ETX lies below the bytes that follow, and so does a complete frame. -/
theorem verdictIsStableUnderMoreBytes : Obligations.VerdictIsStableUnderMoreBytes :=
  ⟨fun _ q _ => firstEtx_append q, fun cfg _ q => classify_append cfg q⟩

/-- So what comes before a pending accumulator was pending. -/
theorem classify_pending_of_append {cfg : Config} {p q : List Byte} (h : classify cfg (p ++ q) = .pending) :
    classify cfg p = .pending := by
  by_contra hp
  exact hp ((classify_append cfg q hp).symm.trans h)

/-- R163 on a pending accumulator: a verdict is that of a control byte alone, or of a frame just complete. -/
theorem classify_concat_cases {cfg : Config} {p : List Byte} (b : Byte) (h : classify cfg p = .pending) :
    (p = [] ∧ b = ackByte ∧ classify cfg (p ++ [b]) = .ack) ∨
    (p = [] ∧ b = nakByte ∧ classify cfg (p ++ [b]) = .nak) ∨
    (p[0]? = some 0x02 ∧ ∃ e, firstEtx p = some e ∧ p.length = e + 4 ∧
      classify cfg (p ++ [b]) = classifyFrame cfg (p ++ [b]) e) ∨
    classify cfg (p ++ [b]) = .pending := by
  obtain ⟨hack, hnak, hopen⟩ := (classify_eq_pending_iff cfg p).1 h
  have hhead {a : Byte} (h0 : (p ++ [b])[0]? = some a) : p[0]? = some a ∨ p = [] ∧ b = a := by
    cases p with
    | nil => exact .inr ⟨rfl, Option.some.inj h0⟩
    | cons c t => exact .inl h0
  obtain ⟨h0, hp⟩ | ⟨h0, hp⟩ | ⟨h0, e, he, hlen, hp⟩ | ⟨-, -, -, hp⟩ := classify_cases cfg (p ++ [b])
  · obtain h0 | ⟨hnil, hb⟩ := hhead h0
    · exact absurd h0 hack
    · exact .inl ⟨hnil, hb, hp⟩
  · obtain h0 | ⟨hnil, hb⟩ := hhead h0
    · exact absurd h0 hnak
    · exact .inr (.inl ⟨hnil, hb, hp⟩)
  · rw [List.length_append, List.length_singleton] at hlen
    obtain h0 | ⟨rfl, -⟩ := hhead h0
    · have hprefix : firstEtx p = some e := (firstEtx_append_iff [b] (by omega)).1 he
      have hshort := hopen h0 e hprefix
      exact .inr (.inr (.inl ⟨h0, e, hprefix, by omega, hp⟩))
    · simp at hlen
  · exact .inr (.inr (.inr hp))

/-! ### The bounds of the text -/

theorem trim_bounds (cfg : Config) (s : List Byte) {lo hi : Nat} (h : lo ≤ hi) :
    (trim cfg s lo hi).1 ≤ (trim cfg s lo hi).2 ∧ (trim cfg s lo hi).2 ≤ hi := by
  obtain ⟨hlo, hlo'⟩ := trimFront_bounds cfg s (hi - lo) lo
  obtain ⟨hhi, hhi'⟩ := trimBack_bounds cfg s (hi - trimFront cfg s lo (hi - lo)) (trimFront cfg s lo (hi - lo))
  unfold trim
  dsimp only
  omega

end Sys2Proof.Machine
end

section
/-! The invariants (R38, with R24, R25, R28, R30 and R31), cut into the units they speak of. The parser's are told by what
`RES` holds: one row for each code, of which a command that latches a verdict proves the one row. A command keeps the
part of its own unit by what it does, and the other parts since it does not write them (R245). -/

namespace Sys2Proof.Machine

/-! ### The parts -/

/-- R38 (a). -/
def State.ChecksumInv (s : State) : Prop := s.ne = false → s.crc = crcInit

/-- R38 (j), R24, R25. -/
def State.BuilderInv (s : State) : Prop :=
  match s.fbSt with
  | .idle => s.tx = [] ∨ EndsWithFrame s.tx
  | .body => ∃ before body, s.tx = before ++ stx :: body ∧ s.fbCrc = crcFold crcInit body

/-- R30: the window while there is no text. -/
def State.NoText (s : State) : Prop := s.lo = 0 ∧ s.hi = 0 ∧ s.rp = 0

/-- R38 (c): the window of a text. -/
def State.Window (s : State) : Prop := s.lo ≤ s.rp ∧ s.rp ≤ s.hi ∧ s.hi ≤ s.acc.length

/-- R31: the checksums while none were compared. -/
def State.NoChecksums (s : State) : Prop := s.rxcrc = 0 ∧ s.calcCrc = 0

/-- R38 (g). -/
def State.FrameComplete (s : State) : Prop :=
  s.acc.head? = some stx ∧ ∃ e, firstEtx s.acc = some e ∧ s.acc.length = e + 5

/-- R28, R30, R31 and R38 (c), (e) to (i), by the code of `RES`. -/
def State.ResInv (s : State) : Prop :=
  match s.res with
  | .pending => classify s.cfg s.acc = .pending ∧ s.eosf = false ∧ s.NoText ∧ s.NoChecksums
  | .ack => s.acc = [ackByte] ∧ s.eosf = false ∧ s.NoText ∧ s.NoChecksums
  | .nak => s.acc = [nakByte] ∧ s.eosf = false ∧ s.NoText ∧ s.NoChecksums
  | .framedText => s.FrameComplete ∧ s.eosf = false ∧ s.Window ∧ s.rxcrc = s.calcCrc
  | .rawText =>
    (1 ≤ s.acc.length ∧ s.acc.head? ≠ some ackByte ∧ s.acc.head? ≠ some nakByte) ∧ s.eosf = true ∧ s.Window ∧
      s.NoChecksums
  | .crcFormatError => s.FrameComplete ∧ s.eosf = false ∧ s.NoText ∧ s.NoChecksums
  | .crcMismatchError => s.FrameComplete ∧ s.eosf = false ∧ s.NoText ∧ s.rxcrc ≠ s.calcCrc
  | .noData => s.acc = [] ∧ s.eosf = true ∧ s.NoText ∧ s.NoChecksums
  | .overflow =>
    (s.cfg.accMax = some s.acc.length ∧ s.err &&& errOvf = errOvf) ∧ s.eosf = false ∧ s.NoText ∧ s.NoChecksums

/-- The parser's part: R38 (b), and the row of `RES`. -/
def State.ParserInv (s : State) : Prop := (∀ m, s.cfg.accMax = some m → s.acc.length ≤ m) ∧ s.ResInv

theorem State.NoText.window {s : State} (h : s.NoText) : s.Window := by
  obtain ⟨hlo, hhi, hrp⟩ := h
  unfold State.Window
  omega

theorem State.Inv.resInv {s : State} (h : s.Inv) : s.ResInv := by
  have heosf : s.res ≠ .rawText → s.res ≠ .noData → s.eosf = false := fun hraw hno =>
    Bool.eq_false_iff.2 fun heos => (h.eosDecides heos).elim hraw hno
  unfold State.ResInv
  cases hres : s.res with
  | pending =>
    obtain ⟨heos, hclassify⟩ := h.pendingClean hres
    exact ⟨hclassify, heos, h.noTextNoWindow (by rw [hres]; rfl), h.checksumsUnwritten (by simp [hres]) (by simp [hres])⟩
  | ack =>
    exact ⟨h.ackIsByte hres, heosf (by simp [hres]) (by simp [hres]), h.noTextNoWindow (by rw [hres]; rfl),
      h.checksumsUnwritten (by simp [hres]) (by simp [hres])⟩
  | nak =>
    exact ⟨h.nakIsByte hres, heosf (by simp [hres]) (by simp [hres]), h.noTextNoWindow (by rw [hres]; rfl),
      h.checksumsUnwritten (by simp [hres]) (by simp [hres])⟩
  | framedText =>
    exact ⟨h.frameIsComplete (by simp [hres]), heosf (by simp [hres]) (by simp [hres]), h.window, h.framedAgrees hres⟩
  | rawText =>
    obtain ⟨hlen, heos, hack, hnak⟩ := h.rawIsNoControl hres
    exact ⟨⟨hlen, hack, hnak⟩, heos, h.window, h.checksumsUnwritten (by simp [hres]) (by simp [hres])⟩
  | crcFormatError =>
    exact ⟨h.frameIsComplete (by simp [hres]), heosf (by simp [hres]) (by simp [hres]),
      h.noTextNoWindow (by rw [hres]; rfl), h.checksumsUnwritten (by simp [hres]) (by simp [hres])⟩
  | crcMismatchError =>
    exact ⟨h.frameIsComplete (by simp [hres]), heosf (by simp [hres]) (by simp [hres]),
      h.noTextNoWindow (by rw [hres]; rfl), h.mismatchDiffers hres⟩
  | noData =>
    obtain ⟨hnil, heos⟩ := h.noDataIsEmpty hres
    exact ⟨hnil, heos, h.noTextNoWindow (by rw [hres]; rfl), h.checksumsUnwritten (by simp [hres]) (by simp [hres])⟩
  | overflow =>
    exact ⟨h.overflowIsFull hres, heosf (by simp [hres]) (by simp [hres]), h.noTextNoWindow (by rw [hres]; rfl),
      h.checksumsUnwritten (by simp [hres]) (by simp [hres])⟩

theorem State.ResInv.window {s : State} (h : s.ResInv) : s.Window := by
  unfold State.ResInv at h
  split at h
  case h_4 | h_5 =>
    obtain ⟨-, -, hwindow, -⟩ := h
    exact hwindow
  all_goals
    obtain ⟨-, -, hnoText, -⟩ := h
    exact hnoText.window

/-- The parts are the invariants, nothing less and nothing more. -/
theorem State.inv_iff (s : State) : s.Inv ↔ s.ChecksumInv ∧ s.BuilderInv ∧ s.ParserInv := by
  constructor
  · intro h
    refine ⟨h.emptyChecksum, ?_, h.accFits, h.resInv⟩
    unfold State.BuilderInv
    cases hst : s.fbSt with
    | idle => exact h.idleHistory hst
    | body => exact h.openFrame hst
  · rintro ⟨hchecksum, hbuilder, hfits, hresInv⟩
    have hwindow := hresInv.window
    unfold State.BuilderInv at hbuilder
    unfold State.ResInv State.NoText State.NoChecksums at hresInv
    constructor
    case emptyChecksum => exact hchecksum
    case accFits => exact hfits
    case window => exact hwindow
    case idleHistory => intro hst; rwa [hst] at hbuilder
    case openFrame => intro hst; rwa [hst] at hbuilder
    -- Each other clause asks of a code of `RES` what its row says, and nothing of the codes it leaves out.
    all_goals cases hres : s.res <;> rw [hres] at hresInv <;> simp_all [ResultCode.hasText, State.FrameComplete]

/-! ### Each part is kept by the commands of the other units -/

theorem State.ChecksumInv.congr {s t : State} (h : s.ChecksumInv) (hsame : SameCrcEngine s t) : t.ChecksumInv := by
  obtain ⟨hcrc, hne⟩ := hsame
  unfold State.ChecksumInv
  rwa [hcrc, hne]

theorem State.BuilderInv.congr {s t : State} (h : s.BuilderInv) (hsame : SameBuilder s t) : t.BuilderInv := by
  obtain ⟨hst, hcrc, htx⟩ := hsame
  unfold State.BuilderInv
  rwa [hst, hcrc, htx]

/-- A bit that is set stays set when others are joined. -/
theorem or_and_eq_of_and_eq {a c : BitVec 3} (b : BitVec 3) (h : a &&& c = c) : (a ||| b) &&& c = c := by
  ext i hi
  have hi := congrArg (fun x => x[i]) h
  simp only [BitVec.getElem_and, BitVec.getElem_or] at hi ⊢
  rw [Bool.and_or_distrib_right, hi, Bool.or_eq_left_iff_imp, Bool.and_eq_true]
  exact And.right

/-- The parser's part speaks of `ERR.OVF` besides: that it is set, so that it may be set and not cleared. -/
theorem State.ParserInv.congr {s t : State} (h : s.ParserInv) (hcfg : t.cfg = s.cfg) (hsame : SameParser s t)
    (herr : s.err ||| t.err = t.err) : t.ParserInv := by
  have hovf : s.err &&& errOvf = errOvf → t.err &&& errOvf = errOvf := by
    intro hset
    rw [← herr]
    exact or_and_eq_of_and_eq t.err hset
  obtain ⟨hfits, hresInv⟩ := h
  obtain ⟨hacc, heosf, hres, hlo, hhi, hrp, hrx, hcalc⟩ := hsame
  refine ⟨by rwa [hcfg, hacc], ?_⟩
  unfold State.ResInv State.NoText State.Window State.NoChecksums State.FrameComplete at hresInv ⊢
  rw [hcfg, hacc, heosf, hres, hlo, hhi, hrp, hrx, hcalc]
  split at hresInv
  case h_9 =>
    obtain ⟨⟨hfull, hset⟩, hrest⟩ := hresInv
    exact ⟨⟨hfull, hovf hset⟩, hrest⟩
  all_goals exact hresInv

/-! ### Each part is kept by the commands of its own unit -/

theorem State.checksumInv_clearCrc (s : State) : s.clearCrc.ChecksumInv := fun _ => rfl

theorem exec_keeps_checksumInv {i : Instr} {s t : State} (h : s.ChecksumInv) (hexec : exec i s = .next t) :
    t.ChecksumInv := by
  by_cases hrst : i = .sysRst
  · subst hrst; cases hexec; exact s.checksumInv_clearCrc
  by_cases hunit : unitOf i = .crcEngine
  · cases i with
    | crcClr => cases hexec; exact s.checksumInv_clearCrc
    | crcUpd b => cases hexec; exact fun hne => absurd hne (by simp)
    | crcRd | tblRd => cases hexec; exact h
    | _ => simp [unitOf] at hunit
  · exact h.congr (exec_sameUnit (u := .crcEngine) hrst hexec (by simp) (Ne.symm hunit))

theorem State.builderInv_of_idle {s : State} (hst : s.fbSt = .idle) : s.BuilderInv ↔ s.tx = [] ∨ EndsWithFrame s.tx := by
  rw [State.BuilderInv, hst]

theorem State.builderInv_of_body {s : State} (hst : s.fbSt = .body) :
    s.BuilderInv ↔ ∃ before body, s.tx = before ++ stx :: body ∧ s.fbCrc = crcFold crcInit body := by
  rw [State.BuilderInv, hst]

/-- R248: a frame that `SYS.RST` abandons stays on `TX`, cut short. -/
theorem State.BuilderInv.clearBuilder {s : State} (h : s.BuilderInv) : s.clearBuilder.BuilderInv := by
  rw [State.builderInv_of_idle rfl, State.clearBuilder_tx]
  cases hst : s.fbSt with
  | idle => exact (State.builderInv_of_idle hst).1 h
  | body =>
    obtain ⟨before, body, htx, -⟩ := (State.builderInv_of_body hst).1 h
    exact .inr (.inr ⟨before, body, htx⟩)

theorem crc16_append_etx (body : List Byte) : crc16 (body ++ [etx]) = upd (crcFold crcInit body) etx := by
  rw [crc16_of_ne_nil (by simp), crcFold_append, crcFold_cons, crcFold_nil]

/-- ETX and the digits of the checksum make the open frame the frame of its body. -/
theorem build_eq (body : List Byte) :
    build body = stx :: body ++ [etx] ++ hex4 (upd (crcFold crcInit body) etx) := by
  rw [build, crc16_append_etx]
  rfl

theorem exec_keeps_builderInv {i : Instr} {s t : State} (h : s.BuilderInv) (hexec : exec i s = .next t) :
    t.BuilderInv := by
  by_cases hrst : i = .sysRst
  · subst hrst; cases hexec; exact h.clearBuilder
  by_cases hunit : unitOf i = .builder
  · cases i with
    | fbStart =>
      cases hst : s.fbSt with
      | idle =>
        cases (exec_fbStart_of_idle hst).symm.trans hexec
        exact (State.builderInv_of_body rfl).2 ⟨s.tx, [], rfl, rfl⟩
      | body => cases (exec_fbStart_of_body hst).symm.trans hexec; exact h
    | fbByte b =>
      cases hst : s.fbSt with
      | idle => cases (exec_fbByte_of_idle b hst).symm.trans hexec; exact h
      | body =>
        cases (exec_fbByte_of_body b hst).symm.trans hexec
        obtain ⟨before, body, htx, hcrc⟩ := (State.builderInv_of_body hst).1 h
        refine (State.builderInv_of_body (by simp [hst])).2 ⟨before, body ++ [b], ?_, ?_⟩
        · simp [htx]
        · simp [crcFold_append, hcrc]
    | fbEnd =>
      cases hst : s.fbSt with
      | idle => cases (exec_fbEnd_of_idle hst).symm.trans hexec; exact h
      | body =>
        cases (exec_fbEnd_of_body hst).symm.trans hexec
        obtain ⟨before, body, htx, hcrc⟩ := (State.builderInv_of_body hst).1 h
        refine (State.builderInv_of_idle rfl).2 (.inr (.inl ⟨before, body, ?_⟩))
        simp [htx, hcrc, build_eq]
    | _ => simp [unitOf] at hunit
  · exact h.congr (exec_sameUnit (u := .builder) hrst hexec (by simp) (Ne.symm hunit))

theorem State.parserInv_clearParser (s : State) : s.clearParser.ParserInv :=
  ⟨fun _ _ => Nat.zero_le _, rfl, rfl, ⟨rfl, rfl, rfl⟩, rfl, rfl⟩

theorem State.resInv_of_pending {s : State} (hres : s.res = .pending) :
    s.ResInv ↔ classify s.cfg s.acc = .pending ∧ s.eosf = false ∧ s.NoText ∧ s.NoChecksums := by
  rw [State.ResInv, hres]

/-- A pending parser whose frame is just complete latches one of the three rows of a frame. -/
theorem State.resInv_latch_classifyFrame {t : State} {e : Nat} (hframe : t.FrameComplete) (heos : t.eosf = false)
    (hnoText : t.NoText) (hnoSums : t.NoChecksums) (h1 : 1 ≤ e) (hlen : e ≤ t.acc.length) :
    (t.latch (classifyFrame t.cfg t.acc e)).ResInv := by
  cases hv : parsehex4 t.cfg (crcField t.acc e) with
  | none =>
    rw [classifyFrame_of_none hv]
    exact ⟨hframe, heos, hnoText, hnoSums⟩
  | some v =>
    by_cases hc : crc16 (crcCovered t.acc e) = v
    · rw [classifyFrame_of_eq hv hc]
      obtain ⟨hwin, hhi⟩ := trim_bounds t.cfg t.acc h1
      exact ⟨hframe, heos, ⟨le_rfl, hwin, hhi.trans hlen⟩, rfl⟩
    · rw [classifyFrame_of_ne hv hc]
      exact ⟨hframe, heos, hnoText, Ne.symm hc⟩

/-- R157: what a push with room latches. -/
theorem State.resInv_latch_classify {s : State} (b : Byte) (hres : s.res = .pending) (h : s.ResInv) :
    ((s.append b).latch (classify s.cfg (s.acc ++ [b]))).ResInv := by
  obtain ⟨hclassify, heos, hnoText, hnoSums⟩ := (State.resInv_of_pending hres).1 h
  obtain ⟨hnil, rfl, hv⟩ | ⟨hnil, rfl, hv⟩ | ⟨h0, e, he, hlen, hv⟩ | hv := classify_concat_cases b hclassify
  · rw [hv]
    exact ⟨by simp [hnil], heos, hnoText, hnoSums⟩
  · rw [hv]
    exact ⟨by simp [hnil], heos, hnoText, hnoSums⟩
  · rw [hv]
    refine State.resInv_latch_classifyFrame (t := s.append b) ⟨?_, e, firstEtx_append [b] he, ?_⟩ heos hnoText hnoSums
      (one_le_firstEtx he) ?_
    · rw [State.append_acc, List.head?_append, List.head?_eq_getElem?, h0]
      rfl
    · simp [hlen]
    · rw [State.append_acc, List.length_append]
      omega
  · rw [hv]
    exact (State.resInv_of_pending (s := s.append b) hres).2 ⟨hv, heos, hnoText, hnoSums⟩

/-- R158: what the end of the stream latches. -/
theorem State.resInv_latch_classifyEos {s : State} (hres : s.res = .pending) (h : s.ResInv) :
    ({ s with eosf := true }.latch (classifyEos s.cfg s.acc)).ResInv := by
  obtain ⟨hclassify, -, hnoText, hnoSums⟩ := (State.resInv_of_pending hres).1 h
  by_cases hnil : s.acc = []
  · have hv : classifyEos s.cfg s.acc = .noData := by rw [hnil, classifyEos_nil]
    rw [hv]
    exact ⟨hnil, rfl, hnoText, hnoSums⟩
  · rw [classifyEos_of_ne_nil s.cfg hnil]
    obtain ⟨hack, hnak, -⟩ := (classify_eq_pending_iff s.cfg s.acc).1 hclassify
    obtain ⟨hwin, hhi⟩ := trim_bounds s.cfg s.acc (Nat.zero_le s.acc.length)
    rw [← List.head?_eq_getElem?] at hack hnak
    exact ⟨⟨List.length_pos_iff.2 hnil, hack, hnak⟩, rfl, ⟨le_rfl, hwin, hhi⟩, hnoSums⟩

/-- R160: inside the window, `RP` may advance; a window that has an inside belongs to a text. -/
theorem State.ResInv.advance {s : State} (h : s.ResInv) (hlt : s.rp < s.hi) : { s with rp := s.rp + 1 }.ResInv := by
  have hno : ¬ s.NoText := by rintro ⟨-, hhi, -⟩; omega
  have hwindow : s.Window → { s with rp := s.rp + 1 }.Window := by
    rintro ⟨hlo, -, hhi⟩
    exact ⟨Nat.le_succ_of_le hlo, hlt, hhi⟩
  unfold State.ResInv at h ⊢
  split at h
  case h_4 hres | h_5 hres =>
    obtain ⟨hwhat, heos, hwin, hsums⟩ := h
    simp only [hres]
    exact ⟨hwhat, heos, hwindow hwin, hsums⟩
  all_goals
    obtain ⟨-, -, hnoText, -⟩ := h
    exact absurd hnoText hno

theorem exec_fpPush_keeps_parserInv {b : Byte} {s t : State} (h : s.ParserInv) (hexec : exec (.fpPush b) s = .next t) :
    t.ParserInv := by
  by_cases hres : s.res = .pending
  · obtain ⟨hfits, hresInv⟩ := h
    by_cases hfull : s.cfg.accMax = some s.acc.length
    · cases (exec_fpPush_of_full b hres hfull).symm.trans hexec
      obtain ⟨-, heos, hnoText, hnoSums⟩ := (State.resInv_of_pending hres).1 hresInv
      have hovf : (s.err ||| errOvf) &&& errOvf = errOvf :=
        BitVec.or_comm errOvf s.err ▸ or_and_eq_of_and_eq s.err BitVec.and_self
      exact ⟨hfits, ⟨hfull, hovf⟩, heos, hnoText, hnoSums⟩
    · cases (exec_fpPush_of_room b hres hfull).symm.trans hexec
      refine ⟨fun m hm => ?_, State.resInv_latch_classify b hres hresInv⟩
      have hm : s.cfg.accMax = some m := by simpa using hm
      have hle := hfits m hm
      have hne : s.acc.length ≠ m := fun heq => hfull (heq ▸ hm)
      rw [State.respondStatus_acc, State.latch_acc, State.append_acc, List.length_append, List.length_singleton]
      omega
  · cases (exec_fpPush_of_terminal b hres).symm.trans hexec
    exact h

theorem exec_fpEos_keeps_parserInv {s t : State} (h : s.ParserInv) (hexec : exec .fpEos s = .next t) :
    t.ParserInv := by
  by_cases hres : s.res = .pending
  · cases (exec_fpEos_of_pending hres).symm.trans hexec
    obtain ⟨hfits, hresInv⟩ := h
    exact ⟨by simpa using hfits, State.resInv_latch_classifyEos hres hresInv⟩
  · cases (exec_fpEos_of_terminal hres).symm.trans hexec
    exact h

theorem exec_fpGet_keeps_parserInv {s t : State} (h : s.ParserInv) (hexec : exec .fpGet s = .next t) :
    t.ParserInv := by
  rw [exec_fpGet] at hexec
  split at hexec
  next hlt =>
    cases hexec
    obtain ⟨hfits, hresInv⟩ := h
    exact ⟨hfits, hresInv.advance hlt⟩
  next =>
    cases hexec
    exact h

theorem exec_keeps_parserInv {i : Instr} {s t : State} (h : s.ParserInv) (hexec : exec i s = .next t) :
    t.ParserInv := by
  by_cases hrst : i = .sysRst
  · subst hrst; cases hexec; exact s.parserInv_clearParser
  by_cases hunit : unitOf i = .parser
  · cases i with
    | fpRst => cases hexec; exact s.parserInv_clearParser
    | fpPush b => exact exec_fpPush_keeps_parserInv h hexec
    | fpEos => exact exec_fpEos_keeps_parserInv h hexec
    | fpGet => exact exec_fpGet_keeps_parserInv h hexec
    | fpStat | fpRxcrc | fpCalc => cases hexec; exact h
    | _ => simp [unitOf] at hunit
  · exact h.congr (exec_cfg hexec) (exec_sameParser_of_unit_ne hrst hunit hexec) (exec_keeps_err hrst hexec)

/-! ### Every step -/

theorem State.inv_initial (cfg : Config) : (State.initial cfg).Inv :=
  (State.inv_iff _).2 ⟨fun _ => rfl, .inl rfl, State.parserInv_clearParser (State.initial cfg)⟩

theorem exec_keeps_inv {i : Instr} {s t : State} (h : s.Inv) (hexec : exec i s = .next t) : t.Inv := by
  obtain ⟨hchecksum, hbuilder, hparser⟩ := s.inv_iff.1 h
  exact t.inv_iff.2 ⟨exec_keeps_checksumInv hchecksum hexec, exec_keeps_builderInv hbuilder hexec,
    exec_keeps_parserInv hparser hexec⟩

/-- What changes no register but for more bits of `ERR` keeps the invariants. -/
theorem State.Inv.congr {s t : State} (h : s.Inv) (hcfg : t.cfg = s.cfg) (hcrc : SameCrcEngine s t)
    (hbuilder : SameBuilder s t) (hparser : SameParser s t) (herr : s.err ||| t.err = t.err) : t.Inv := by
  obtain ⟨hchecksumInv, hbuilderInv, hparserInv⟩ := s.inv_iff.1 h
  exact t.inv_iff.2 ⟨hchecksumInv.congr hcrc, hbuilderInv.congr hbuilder, hparserInv.congr hcfg hparser herr⟩

theorem State.Inv.setPorts {s : State} (h : s.Inv) (inbox : List HostInput) (resp : Option Word) :
    { s with inbox := inbox, resp := resp }.Inv :=
  h.congr rfl ⟨rfl, rfl⟩ ⟨rfl, rfl, rfl⟩ (SameParser.refl s) BitVec.or_self

/-- `error(X)` writes no register but `ERR`. -/
theorem State.Inv.error {s : State} (h : s.Inv) (bit : BitVec 3) : (s.error bit).Inv :=
  h.congr rfl ⟨rfl, rfl⟩ ⟨rfl, rfl, rfl⟩ (SameParser.refl s)
    (by rw [State.error_err, ← BitVec.or_assoc, BitVec.or_self])

/-- Settles O59: the reset state is an idle builder with nothing emitted and a cleared parser. -/
theorem resetMeetsTheInvariants : Obligations.ResetMeetsTheInvariants :=
  ⟨State.inv_initial Config.standard, State.inv_initial⟩

/-- Settles O60: by what stands at the command port; a command by the parts of its unit and of the others. -/
theorem everyStepKeepsTheInvariants : Obligations.EveryStepKeepsTheInvariants := by
  intro s t h hstep
  cases hin : s.inbox with
  | nil =>
    cases (step_of_inbox_nil hin).symm.trans hstep
    exact h.setPorts s.inbox none
  | cons x rest =>
    cases x with
    | hardwareReset =>
      cases (step_of_hardwareReset hin).symm.trans hstep
      exact (State.inv_initial s.cfg).setPorts rest none
    | command w =>
      have hrest : { s with inbox := rest }.Inv := h.setPorts rest s.resp
      cases hw : decode w with
      | ok i => exact exec_keeps_inv hrest ((step_of_command hin hw).symm.trans hstep)
      | error r =>
        cases (step_of_reserved hin hw).symm.trans hstep
        exact hrest.error errIll

end Sys2Proof.Machine
end

section
/-! The CRC (R101, R105, R111): `upd` without its table; no step of it loses anything, neither of the checksum nor of the
byte. -/

namespace Sys2Proof.Machine

/-! ### The bit-serial form -/

/-- Below the top bit a shift is a shift. -/
theorem crcShift_of_lt {r : Word} (h : r.toNat < 2 ^ 15) : crcShift r = r <<< 1 := by
  have hbit : r.getLsbD 15 = false := Nat.testBit_eq_false_of_lt h
  rw [crcShift, hbit]
  rfl

/-- A value whose upper `n` bits are zero is shifted `n` times before the polynomial goes in. -/
theorem crcShifts_of_lt (n : Nat) {r : Word} (hn : n ≤ 16) (h : r.toNat < 2 ^ (16 - n)) : crcShifts n r = r <<< n := by
  induction n generalizing r with
  | zero => simp [crcShifts]
  | succ n ih =>
    have hpow : 2 ^ (16 - n) = 2 * 2 ^ (16 - (n + 1)) := by
      rw [← Nat.pow_succ']
      congr 1
      omega
    have hle : 2 ^ (16 - (n + 1)) ≤ 2 ^ 15 := Nat.pow_le_pow_right (by decide) (by omega)
    have hshift : (r <<< 1).toNat < 2 ^ (16 - n) := by
      rw [BitVec.toNat_shiftLeft, Nat.shiftLeft_eq]
      omega
    rw [crcShifts, crcShift_of_lt (by omega), ih (by omega) hshift, Nat.add_comm n 1, BitVec.shiftLeft_add]

/-- The byte against the high byte of the checksum is the index of the table step, over the low byte. -/
theorem xor_shiftLeft_eq (c : Word) (b : Byte) :
    c ^^^ (b.zeroExtend 16 <<< 8) =
      (c.setWidth 8).setWidth 16 ^^^ ((((c >>> 8) ^^^ b.zeroExtend 16).setWidth 8).zeroExtend 16 <<< 8) := by
  ext i hi
  by_cases h : i < 8
  · simp [h, BitVec.getLsbD_eq_getElem hi]
  · have h8 : i - 8 < 8 := by omega
    have hi' : 8 + (i - 8) = i := by omega
    simp [h, h8, hi', BitVec.getLsbD_eq_getElem hi]

/-- The low byte of the checksum goes up by eight places. -/
theorem crcShifts_lowByte (c : Word) : crcShifts 8 ((c.setWidth 8).setWidth 16) = c <<< 8 := by
  have hlt : ((c.setWidth 8).setWidth 16).toNat < 2 ^ (16 - 8) := by
    rw [BitVec.toNat_setWidth_of_le (by decide)]
    exact (c.setWidth 8).isLt
  rw [crcShifts_of_lt 8 (by decide) hlt]
  ext i hi
  by_cases h : i < 8
  · simp [h]
  · have h8 : i - 8 < 8 := by omega
    have h16 : i - 8 < 16 := by omega
    simp [h, h8, BitVec.getLsbD_eq_getElem h16]

/-- Settles O11: a shift is linear over exclusive or, so that the index and the low byte may be shifted apart. -/
theorem updEqualsBitSerialForm : Obligations.UpdEqualsBitSerialForm := by
  intro c b
  rw [updBitSerial, xor_shiftLeft_eq, crcShifts_xor, crcShifts_lowByte]
  rfl

/-! ### Nothing is lost -/

theorem shiftByte_injective {b b' : Byte} (h : b.zeroExtend 16 <<< 8 = b'.zeroExtend 16 <<< 8) : b = b' := by
  simpa using congrArg opField h

theorem upd_injective_crc (b : Byte) {c c' : Word} (h : upd c b = upd c' b) : c = c' := by
  rw [updEqualsBitSerialForm, updEqualsBitSerialForm] at h
  exact (BitVec.xor_left_inj _).1 (crcShifts_injective 8 h)

theorem upd_injective_byte (c : Word) {b b' : Byte} (h : upd c b = upd c b') : b = b' := by
  rw [updEqualsBitSerialForm, updEqualsBitSerialForm] at h
  exact shiftByte_injective ((BitVec.xor_right_inj c).1 (crcShifts_injective 8 h))

theorem crcFold_injective (s : List Byte) {c c' : Word} (h : crcFold c s = crcFold c' s) : c = c' := by
  induction s generalizing c c' with
  | nil => exact h
  | cons b s ih => exact upd_injective_crc b (ih h)

/-- One byte replaced by another changes the checksum. -/
theorem crc16_ne_of_byte_ne (p q : List Byte) {b b' : Byte} (h : b ≠ b') :
    crc16 (p ++ [b] ++ q) ≠ crc16 (p ++ [b'] ++ q) := by
  intro heq
  rw [crc16_of_ne_nil (by simp), crc16_of_ne_nil (by simp)] at heq
  simp only [crcFold_append] at heq
  exact h (upd_injective_byte _ (crcFold_injective q heq))

theorem ne_xor_twoPow (b : Byte) {k : Nat} (hk : k < 8) : b ≠ b ^^^ BitVec.twoPow 8 k := by
  intro h
  have hbit := congrArg (fun x => x.getLsbD k) h
  simp [hk] at hbit

/-- Settles O12: up to the byte the folds agree, at it they part, and after it they stay apart. -/
theorem singleBitChangeChangesCrc : Obligations.SingleBitChangeChangesCrc :=
  fun p q b _ hk => crc16_ne_of_byte_ne p q (ne_xor_twoPow b hk)

/-! ### The table -/

theorem tableEntry_injective {i j : Byte} (h : tableEntry i = tableEntry j) : i = j :=
  shiftByte_injective (crcShifts_injective 8 h)

/-- The one value that eight shifts make `0xFFFF`: its low byte is not zero, so it is no index in its place. -/
theorem crcShifts_eq_allOnes : crcShifts 8 0x1E0C = 0xFFFF := by decide

/-- Settles O8: eight shifts lose nothing, so each value comes from one index at most. -/
theorem tableEntriesAreDistinct : Obligations.TableEntriesAreDistinct := by
  refine ⟨fun i => ⟨fun h => ?zero, fun h => h ▸ by decide⟩, fun i h => ?allOnes, fun i j => tableEntry_injective⟩
  case zero => exact tableEntry_injective (h.trans (by decide : (0 : Word) = tableEntry 0))
  case allOnes =>
    have hshift : i.zeroExtend 16 <<< 8 = (0x1E0C : Word) := crcShifts_injective 8 (h.trans crcShifts_eq_allOnes.symm)
    have hlow := congrArg argField hshift
    rw [argField_shiftLeft] at hlow
    exact absurd hlow (by decide)

end Sys2Proof.Machine
end

section
/-! The pseudo-commands of the CRC Engine and the builder (R89, R110, R135): their expansions run to the end, and what they
leave is the sequence's checksum and the body's frame. -/

namespace Sys2Proof.Machine

theorem runCommands_singleton {i : Instr} {s t : State} (h : exec i s = .next t) : runCommands [i] s = .next t := by
  rw [runCommands_cons [] h, runCommands_nil]

/-! ### `CRC.COMPUTE` -/

theorem runCommands_crcUpd (bytes : List Byte) (s : State) :
    ∃ r, runCommands (bytes.map .crcUpd) s =
      .next { s with crc := crcFold s.crc bytes, ne := s.ne || !bytes.isEmpty, resp := r } := by
  induction bytes generalizing s with
  | nil => exact ⟨s.resp, by simp⟩
  | cons b bytes ih =>
    obtain ⟨r, hr⟩ := ih ({ s with crc := upd s.crc b, ne := true }.respond 0x0000)
    refine ⟨r, ?_⟩
    rw [List.map_cons, runCommands_cons _ (exec_crcUpd b s), hr]
    simp

/-- What `CRC.RD` reads after `CRC.CLR` and the bytes. -/
theorem crcRd_after_bytes (bytes : List Byte) :
    (if (false || !bytes.isEmpty) = true then crcFold crcInit bytes else 0x0000) = crc16 bytes := by
  cases bytes <;> rfl

/-- Settles O13: clear, absorb, read; the `CRC.RD` is the last command. -/
theorem crcComputeReturnsCrcOfSequence : Obligations.CrcComputeReturnsCrcOfSequence := by
  intro bytes s
  obtain ⟨r, hbytes⟩ := runCommands_crcUpd bytes (s.clearCrc.respond 0x0000)
  have hrun : runCommands (.crcClr :: bytes.map .crcUpd) s = _ := (runCommands_cons _ (exec_crcClr s)).trans hbytes
  exact ⟨_, (runCommands_append [.crcRd] hrun).trans (runCommands_singleton (exec_crcRd _)),
    congrArg some (crcRd_after_bytes bytes), ⟨rfl, rfl, rfl⟩, SameParser.refl s, rfl, ⟨rfl, rfl⟩,
    .crcClr :: bytes.map .crcUpd, [], rfl, by simp⟩

/-! ### `FB.BUILD` -/

theorem runCommands_fbByte (body : List Byte) {s : State} (h : s.fbSt = .body) :
    ∃ r, runCommands (body.map .fbByte) s =
      .next { s with tx := s.tx ++ body, fbCrc := crcFold s.fbCrc body, resp := r } := by
  induction body generalizing s with
  | nil => exact ⟨s.resp, by simp⟩
  | cons b body ih =>
    obtain ⟨r, hr⟩ := ih (s := { s.emit [b] with fbCrc := upd s.fbCrc b }.respond 0x0000) h
    refine ⟨r, ?_⟩
    rw [List.map_cons, runCommands_cons _ (exec_fbByte_of_body b h), hr]
    simp

/-- The open frame of `body` after what `s` has emitted. -/
def State.openFrame (s : State) (body : List Byte) (r : Option Word) : State :=
  { s with tx := s.tx ++ [stx] ++ body, fbCrc := crcFold crcInit body, fbSt := .body, resp := r }

theorem runCommands_fbStart_fbByte (body : List Byte) {s : State} (h : s.fbSt = .idle) :
    ∃ r, runCommands (.fbStart :: body.map .fbByte) s = .next (s.openFrame body r) := by
  obtain ⟨r, hbody⟩ := runCommands_fbByte body
    (s := { s.emit [stx] with fbCrc := crcInit, fbSt := .body }.respond 0x0000) rfl
  exact ⟨r, (runCommands_cons _ (exec_fbStart_of_idle h)).trans hbody⟩

/-- Settles O17: without `FB.END` nothing closes a frame; the expansion opens one, emits the body and closes it by its
last command. -/
theorem fbBuildAppendsTheFrame : Obligations.FbBuildAppendsTheFrame := by
  refine ⟨?noEnd, fun body s hidle => ?build⟩
  case noEnd =>
    rintro s t commands hno ⟨-, before, rest, u, v, rfl, -⟩
    exact hno (by simp)
  case build =>
    obtain ⟨r, hopen⟩ := runCommands_fbStart_fbByte body hidle
    have hend := exec_fbEnd_of_body (s := s.openFrame body r) rfl
    refine ⟨_, (runCommands_append [.fbEnd] hopen).trans (runCommands_singleton hend),
      ⟨rfl, .fbStart :: body.map .fbByte, [], _, _, rfl, hopen, rfl, hend, rfl, by simp⟩, ?bytes, ?checksum, rfl, rfl,
      ⟨rfl, rfl⟩, SameParser.refl s, ⟨rfl, rfl⟩⟩
    case bytes => exact crc16_append_etx body ▸ rfl
    case checksum => exact congrArg some (crc16_append_etx body).symm

end Sys2Proof.Machine
end

section
/-! The CRC field rendered (R84) and read back (R85). -/

namespace Sys2Proof.Machine

theorem hexdigit_toNat (n : BitVec 4) :
    (hexdigit n).toNat = if n.toNat ≤ 9 then 0x30 + n.toNat else 0x41 + (n.toNat - 10) := by
  unfold hexdigit
  split
  · rw [BitVec.toNat_ofNat]
    omega
  · rw [BitVec.toNat_ofNat]
    omega

/-- R84: the digits are `'0'` to `'9'` and `'A'` to `'F'`. -/
theorem hexdigit_range (n : BitVec 4) :
    (0x30 ≤ (hexdigit n).toNat ∧ (hexdigit n).toNat ≤ 0x39) ∨ (0x41 ≤ (hexdigit n).toNat ∧ (hexdigit n).toNat ≤ 0x46) := by
  rw [hexdigit_toNat]
  split <;> omega

/-- A rendered digit is worth its nibble, under either value of `HEX_LOWER_OK`. -/
theorem hexval_hexdigit (cfg : Config) (n : BitVec 4) : hexval cfg (hexdigit n) = some n := by
  apply Option.map_injective (fun _ _ h => BitVec.eq_of_toNat_eq h)
  rw [hexval_toNat, hexdigit_toNat, Option.map_some]
  by_cases hn : n.toNat ≤ 9
  · rw [if_pos hn, if_pos (by omega), Nat.add_sub_cancel_left]
  · rw [if_neg hn, if_neg (by omega), if_pos (by omega), Nat.add_sub_cancel_left, Nat.sub_add_cancel (by omega)]

/-- A word is the positional value of its four nibbles. -/
theorem nibbles_toNat (v : Word) :
    (v.extractLsb' 12 4).toNat * 4096 + (v.extractLsb' 8 4).toNat * 256 + (v.extractLsb' 4 4).toNat * 16 +
      (v.extractLsb' 0 4).toNat = v.toNat := by
  simp only [BitVec.extractLsb'_toNat, Nat.shiftRight_eq_div_pow, Nat.reducePow]
  omega

theorem parsehex4_hex4 (cfg : Config) (v : Word) : parsehex4 cfg (hex4 v) = some v := by
  rw [hex4, parsehex4_of_digits (hexval_hexdigit cfg _) (hexval_hexdigit cfg _) (hexval_hexdigit cfg _)
    (hexval_hexdigit cfg _), nibbles_toNat, BitVec.ofNat_toNat, BitVec.setWidth_eq]

theorem length_hex4 (v : Word) : (hex4 v).length = 4 := rfl

/-- Settles O19: digit by digit. -/
theorem renderedFieldParsesBack : Obligations.RenderedFieldParsesBack := by
  refine fun cfg v => ⟨parsehex4_hex4 cfg v, fun b hb => ?_⟩
  simp only [hex4, List.mem_cons, List.not_mem_nil, or_false] at hb
  obtain rfl | rfl | rfl | rfl := hb
  all_goals exact hexdigit_range _

end Sys2Proof.Machine
end

section
/-! The frame by its parts, body and CRC field, and R168's parser, which keeps the phase, the running checksum and the
digits where `classify` scans again: what it keeps is what the bytes received come to. -/

namespace Sys2Proof.Machine

/-! ### A frame by its parts -/

theorem firstEtx_cons_eq_none_iff (a : Byte) (t : List Byte) : firstEtx (a :: t) = none ↔ etx ∉ t := by
  rw [firstEtx_eq_idxOf?, Option.map_eq_none_iff, List.idxOf?_eq_none_iff]
  rfl

theorem firstEtx_frame {t : List Byte} (h : etx ∉ t) (a : Byte) (f : List Byte) :
    firstEtx (a :: (t ++ etx :: f)) = some (t.length + 1) := by
  refine (firstEtx_eq_some_iff _ _).2 ⟨by omega, by simp [etx], fun j h1 hj => ?_⟩
  obtain ⟨j, rfl⟩ := Nat.exists_eq_add_of_le' h1
  rw [List.getElem?_cons_succ, List.getElem?_append_left (by omega)]
  exact fun hget => h (List.mem_of_getElem? hget)

theorem crcField_frame (a : Byte) (t : List Byte) {f : List Byte} (hf : f.length = 4) :
    crcField (a :: (t ++ etx :: f)) (t.length + 1) = f := by
  rw [crcField, ← List.cons_append, List.append_cons, List.drop_left' (by simp), List.take_of_length_le hf.le]

theorem crcCovered_frame (a : Byte) (t f : List Byte) :
    crcCovered (a :: (t ++ etx :: f)) (t.length + 1) = t ++ [etx] := by
  rw [crcCovered, List.drop_one, List.tail_cons, List.append_cons, List.take_left' (by simp)]

theorem classify_frame {t f : List Byte} (cfg : Config) (h : etx ∉ t) (hf : f.length = 4) :
    classify cfg (stx :: (t ++ etx :: f)) = classifyFrame cfg (stx :: (t ++ etx :: f)) (t.length + 1) :=
  classify_complete cfg (firstEtx_frame h stx f) (by simp [hf])

theorem classify_frame_of_none {cfg : Config} {t f : List Byte} (h : etx ∉ t) (hf : f.length = 4)
    (hv : parsehex4 cfg f = none) : classify cfg (stx :: (t ++ etx :: f)) = .crcFormatError := by
  rw [classify_frame cfg h hf, classifyFrame_of_none (by rw [crcField_frame stx t hf, hv])]

theorem classify_frame_of_ne {cfg : Config} {t f : List Byte} {v : Word} (h : etx ∉ t) (hf : f.length = 4)
    (hv : parsehex4 cfg f = some v) (hc : crc16 (t ++ [etx]) ≠ v) :
    classify cfg (stx :: (t ++ etx :: f)) = .crcMismatchError v (crc16 (t ++ [etx])) := by
  rw [classify_frame cfg h hf, classifyFrame_of_ne (by rw [crcField_frame stx t hf, hv])
    (by rwa [crcCovered_frame]), crcCovered_frame]

theorem classify_frame_of_eq {cfg : Config} {t f : List Byte} {v : Word} (h : etx ∉ t) (hf : f.length = 4)
    (hv : parsehex4 cfg f = some v) (hc : crc16 (t ++ [etx]) = v) :
    classify cfg (stx :: (t ++ etx :: f)) =
      .framedText (trim cfg (stx :: (t ++ etx :: f)) 1 (t.length + 1)).1
        (trim cfg (stx :: (t ++ etx :: f)) 1 (t.length + 1)).2 v v := by
  rw [classify_frame cfg h hf, classifyFrame_of_eq (by rw [crcField_frame stx t hf, hv])
    (by rwa [crcCovered_frame])]

/-- A frame is pending until its field has four bytes. -/
theorem classify_frame_of_lt {t f : List Byte} (cfg : Config) (h : etx ∉ t) (hf : f.length < 4) :
    classify cfg (stx :: (t ++ etx :: f)) = .pending :=
  classify_short cfg (firstEtx_frame h stx f) (by simp only [List.length_cons, List.length_append]; omega)

/-! ### The shift register -/

/-- Shifting digit after digit puts each in its place. -/
theorem shift_digits (d0 d1 d2 d3 : BitVec 4) :
    (((((((0 : Word) <<< 4 ||| d0.zeroExtend 16) <<< 4) ||| d1.zeroExtend 16) <<< 4) ||| d2.zeroExtend 16) <<< 4) |||
        d3.zeroExtend 16 =
      (d0.zeroExtend 16 <<< 12) ||| (d1.zeroExtend 16 <<< 8) ||| (d2.zeroExtend 16 <<< 4) ||| d3.zeroExtend 16 := by
  have hzero (x : Word) : (0 : Word) <<< 4 ||| x = x := BitVec.zero_or
  simp only [hzero, BitVec.shiftLeft_or_distrib, ← BitVec.shiftLeft_add, Nat.reduceAdd]

theorem shiftDigit_of_none {cfg : Config} {b : Byte} (h : hexval cfg b = none) (digits : Option Word) :
    shiftDigit cfg digits b = none := by
  cases digits <;> simp [shiftDigit, h]

theorem shiftDigit_of_some {cfg : Config} {b : Byte} {d : BitVec 4} (h : hexval cfg b = some d) (v : Word) :
    shiftDigit cfg (some v) b = some ((v <<< 4) ||| d.zeroExtend 16) := by
  simp [shiftDigit, h]

/-- The register holds the field's value once it has taken the four bytes. -/
theorem foldl_shiftDigit {cfg : Config} {f : List Byte} (hf : f.length = 4) :
    f.foldl (shiftDigit cfg) (some 0) = parsehex4 cfg f := by
  obtain ⟨f0, f1, f2, f3, rfl⟩ := List.length_eq_four.1 hf
  simp only [List.foldl_cons, List.foldl_nil]
  cases h0 : hexval cfg f0 with
  | none => rw [(parsehex4_eq_none_iff ..).2 (.inl h0), shiftDigit_of_none h0]; rfl
  | some d0 =>
  cases h1 : hexval cfg f1 with
  | none => rw [(parsehex4_eq_none_iff ..).2 (.inr (.inl h1)), shiftDigit_of_none h1]; rfl
  | some d1 =>
  cases h2 : hexval cfg f2 with
  | none => rw [(parsehex4_eq_none_iff ..).2 (.inr (.inr (.inl h2))), shiftDigit_of_none h2]; rfl
  | some d2 =>
  cases h3 : hexval cfg f3 with
  | none => rw [(parsehex4_eq_none_iff ..).2 (.inr (.inr (.inr h3))), shiftDigit_of_none h3]
  | some d3 =>
    rw [parsehex4_of_digits h0 h1 h2 h3, ← nibbles_join, ← shift_digits, shiftDigit_of_some h0, shiftDigit_of_some h1,
      shiftDigit_of_some h2, shiftDigit_of_some h3]

/-! ### The byte-serial parser -/

/-- What the parser of R168 keeps, phase by phase, once it has received `s` and reached no verdict. -/
def Serial.Scanned (cfg : Config) (p : Serial) (s : List Byte) : Prop :=
  p.acc = s ∧
  match p.phase with
  | .empty => s = [] ∧ p.sum = crcInit ∧ p.digits = some 0
  | .frame => ∃ t, s = stx :: t ∧ etx ∉ t ∧ p.sum = crcFold crcInit t ∧ p.digits = some 0
  | .field k =>
    ∃ t f, s = stx :: (t ++ etx :: f) ∧ etx ∉ t ∧ f.length = k ∧ k < 4 ∧ p.sum = crc16 (t ++ [etx]) ∧
      p.etxAt = t.length + 1 ∧ p.digits = f.foldl (shiftDigit cfg) (some 0)
  | .raw => ∃ a t, s = a :: t ∧ a ≠ ackByte ∧ a ≠ nakByte ∧ a ≠ stx

theorem Serial.scanned_start (cfg : Config) : Serial.start.Scanned cfg [] := ⟨rfl, rfl, rfl, rfl⟩

theorem Serial.Scanned.classify_pending {cfg : Config} {p : Serial} {s : List Byte} (h : p.Scanned cfg s) :
    classify cfg s = .pending := by
  obtain ⟨-, h⟩ := h
  split at h
  · obtain ⟨rfl, -⟩ := h
    rfl
  · obtain ⟨t, rfl, ht, -⟩ := h
    exact classify_open cfg ((firstEtx_cons_eq_none_iff _ t).2 ht)
  · obtain ⟨t, f, rfl, ht, rfl, hk, -⟩ := h
    exact classify_frame_of_lt cfg ht hk
  · obtain ⟨a, t, rfl, hack, hnak, hstx⟩ := h
    exact classify_raw cfg t hack hnak hstx

/-- What a push answers: the verdict of `classify`, and while that is pending, a parser that goes on with the bytes. -/
def Serial.PushAgrees (cfg : Config) (p : Serial) (s : List Byte) (b : Byte) : Prop :=
  (p.push cfg b).2 = classify cfg (s ++ [b]) ∧
    (classify cfg (s ++ [b]) = .pending → (p.push cfg b).1.Scanned cfg (s ++ [b]))

theorem Serial.push_of_empty {cfg : Config} {p : Serial} {s : List Byte} (b : Byte) (hphase : p.phase = .empty)
    (h : p.Scanned cfg s) : p.PushAgrees cfg s b := by
  unfold Serial.Scanned at h
  rw [hphase] at h
  obtain ⟨hacc, rfl, hsum, hdigits⟩ := h
  unfold Serial.PushAgrees Serial.push
  rw [hphase]
  by_cases hack : b = ackByte
  · subst hack
    simp [show classify cfg [ackByte] = .ack from classify_ack cfg []]
  by_cases hnak : b = nakByte
  · subst hnak
    simp [show classify cfg [nakByte] = .nak from classify_nak cfg [], hack]
  by_cases hstx : b = stx
  · subst hstx
    have hpending : classify cfg [stx] = .pending := classify_open cfg rfl
    simp only [hack, hnak, List.nil_append, hpending, if_true, if_false]
    exact ⟨trivial, fun _ => ⟨by simp [hacc], [], rfl, by simp, hsum, hdigits⟩⟩
  · have hpending : classify cfg [b] = .pending := classify_raw cfg [] hack hnak hstx
    simp only [hack, hnak, hstx, List.nil_append, hpending, if_false]
    exact ⟨trivial, fun _ => ⟨by simp [hacc], b, [], rfl, hack, hnak, hstx⟩⟩

theorem Serial.push_of_frame {cfg : Config} {p : Serial} {s : List Byte} (b : Byte) (hphase : p.phase = .frame)
    (h : p.Scanned cfg s) : p.PushAgrees cfg s b := by
  unfold Serial.Scanned at h
  rw [hphase] at h
  obtain ⟨hacc, t, rfl, ht, hsum, hdigits⟩ := h
  unfold Serial.PushAgrees Serial.push
  rw [hphase]
  by_cases hetx : b = etx
  · subst hetx
    have hpending : classify cfg (stx :: (t ++ [etx])) = .pending := classify_frame_of_lt cfg ht (by simp)
    have hcrc : upd p.sum etx = crc16 (t ++ [etx]) := by rw [hsum, crc16_append_etx]
    simp only [List.cons_append, hpending, if_true]
    exact ⟨trivial, fun _ => ⟨by simp [hacc], t, [], rfl, ht, rfl, by decide, hcrc, by simp [hacc], hdigits⟩⟩
  · have hnot : etx ∉ t ++ [b] := by simp [ht, Ne.symm hetx]
    have hpending : classify cfg (stx :: (t ++ [b])) = .pending :=
      classify_open cfg ((firstEtx_cons_eq_none_iff _ _).2 hnot)
    simp only [hetx, List.cons_append, hpending, if_false]
    exact ⟨trivial, fun _ => ⟨by simp [hacc], t ++ [b], rfl, hnot, by simp [crcFold_append, hsum], hdigits⟩⟩

/-- The field's fourth byte: the register and the running checksum decide as `classify` does. -/
theorem Serial.decide_eq_classify {cfg : Config} {p : Serial} {t f : List Byte} (ht : etx ∉ t) (hf : f.length = 4)
    (hacc : p.acc = stx :: (t ++ etx :: f)) (hsum : p.sum = crc16 (t ++ [etx])) (hetx : p.etxAt = t.length + 1)
    (hdigits : p.digits = f.foldl (shiftDigit cfg) (some 0)) : p.decide cfg = classify cfg (stx :: (t ++ etx :: f)) := by
  rw [foldl_shiftDigit hf] at hdigits
  unfold Serial.decide
  rw [hdigits]
  cases hv : parsehex4 cfg f with
  | none => rw [classify_frame_of_none ht hf hv]
  | some v =>
    by_cases hc : crc16 (t ++ [etx]) = v
    · rw [classify_frame_of_eq ht hf hv hc]
      simp only [hsum, hc, hacc, hetx, if_true]
    · rw [classify_frame_of_ne ht hf hv hc]
      simp only [hsum, hc, if_false]

theorem Serial.push_of_field {cfg : Config} {p : Serial} {s : List Byte} {k : Nat} (b : Byte)
    (hphase : p.phase = .field k) (h : p.Scanned cfg s) : p.PushAgrees cfg s b := by
  unfold Serial.Scanned at h
  rw [hphase] at h
  obtain ⟨hacc, t, f, rfl, ht, rfl, hk, hsum, hetx, hdigits⟩ := h
  have hlen : (f ++ [b]).length = f.length + 1 := by simp
  have hacc' : p.acc ++ [b] = stx :: (t ++ etx :: (f ++ [b])) := by simp [hacc]
  have hdigits' : shiftDigit cfg p.digits b = (f ++ [b]).foldl (shiftDigit cfg) (some 0) := by simp [hdigits]
  have hs : stx :: (t ++ etx :: f) ++ [b] = stx :: (t ++ etx :: (f ++ [b])) := by simp
  unfold Serial.PushAgrees Serial.push
  rw [hphase, hs]
  by_cases hlast : f.length < 3
  · have hpending := classify_frame_of_lt (t := t) (f := f ++ [b]) cfg ht (by omega)
    simp only [hlast, hpending, if_true]
    exact ⟨trivial, fun _ => ⟨hacc', t, f ++ [b], rfl, ht, hlen, by omega, hsum, hetx, hdigits'⟩⟩
  · have hfour : (f ++ [b]).length = 4 := by omega
    have hdecide := Serial.decide_eq_classify
      (p := { p with acc := p.acc ++ [b], phase := .field (f.length + 1), digits := shiftDigit cfg p.digits b })
      ht hfour hacc' hsum hetx hdigits'
    have hverdict : classify cfg (stx :: (t ++ etx :: (f ++ [b]))) ≠ .pending := by
      rw [classify_frame cfg ht hfour]
      obtain ⟨-, -, hne⟩ := classifyFrame_ne cfg (stx :: (t ++ etx :: (f ++ [b]))) (t.length + 1)
      exact hne
    simp only [hlast, if_false]
    exact ⟨hdecide, fun hpending => absurd hpending hverdict⟩

theorem Serial.push_of_raw {cfg : Config} {p : Serial} {s : List Byte} (b : Byte) (hphase : p.phase = .raw)
    (h : p.Scanned cfg s) : p.PushAgrees cfg s b := by
  unfold Serial.Scanned at h
  rw [hphase] at h
  obtain ⟨hacc, a, t, rfl, hack, hnak, hstx⟩ := h
  have hpending : classify cfg (a :: (t ++ [b])) = .pending := classify_raw cfg _ hack hnak hstx
  unfold Serial.PushAgrees Serial.push
  rw [hphase]
  simp only [List.cons_append, hpending]
  exact ⟨trivial, fun _ => ⟨by simp [hacc], a, t ++ [b], rfl, hack, hnak, hstx⟩⟩

theorem Serial.Scanned.push {cfg : Config} {p : Serial} {s : List Byte} (b : Byte) (h : p.Scanned cfg s) :
    p.PushAgrees cfg s b := by
  cases hphase : p.phase with
  | empty => exact Serial.push_of_empty b hphase h
  | frame => exact Serial.push_of_frame b hphase h
  | field k => exact Serial.push_of_field b hphase h
  | raw => exact Serial.push_of_raw b hphase h

theorem Serial.feed_cons_of_pending {cfg : Config} {p : Serial} {b : Byte} (h : (p.push cfg b).2 = .pending)
    (rest : List Byte) : p.feed cfg (b :: rest) = (p.push cfg b).1.feed cfg rest := by
  rw [Serial.feed]
  split
  next hpush => rw [hpush]
  next hnot hpush => rw [hpush] at h; exact absurd h hnot

theorem Serial.feed_cons_of_ne {cfg : Config} {p : Serial} {b : Byte} (h : (p.push cfg b).2 ≠ .pending)
    (rest : List Byte) : p.feed cfg (b :: rest) = (p.push cfg b).2 := by
  rw [Serial.feed]
  split
  next hpush => rw [hpush] at h; exact absurd rfl h
  next hpush => rw [hpush]

/-- Up to the first verdict the two agree byte by byte; bytes after it change neither. -/
theorem Serial.feed_eq_classify {cfg : Config} (rest : List Byte) {p : Serial} {s : List Byte} (h : p.Scanned cfg s) :
    p.feed cfg rest = classify cfg (s ++ rest) := by
  induction rest generalizing p s with
  | nil => rw [List.append_nil, h.classify_pending]; rfl
  | cons b rest ih =>
    obtain ⟨hverdict, hnext⟩ := h.push b
    rw [List.append_cons]
    by_cases hpending : classify cfg (s ++ [b]) = .pending
    · rw [Serial.feed_cons_of_pending (hverdict.trans hpending), ih (hnext hpending)]
    · rw [Serial.feed_cons_of_ne (hverdict ▸ hpending), hverdict, classify_append cfg rest hpending]

/-- Settles O25: from the start, where nothing is received. -/
theorem serialParserReachesTheSameVerdict : Obligations.SerialParserReachesTheSameVerdict :=
  fun cfg s => Serial.feed_eq_classify s (Serial.scanned_start cfg)

end Sys2Proof.Machine
end

section
/-! The parser under its commands: the rows of R163, the reads of the text (R89, R160), and the pushes that find a verdict
(R165). -/

namespace Sys2Proof.Machine

/-! ### The transition table -/

theorem State.latch_res_eq_pending_iff {s : State} (h : s.res = .pending) (v : Verdict) :
    (s.latch v).res = .pending ↔ v = .pending := by
  cases v <;> simp [h]

/-- The three codes of a complete frame. -/
theorem State.latch_classifyFrame_res (s : State) (cfg : Config) (bytes : List Byte) (e : Nat) :
    (s.latch (classifyFrame cfg bytes e)).res = .framedText ∨
    (s.latch (classifyFrame cfg bytes e)).res = .crcMismatchError ∨
    (s.latch (classifyFrame cfg bytes e)).res = .crcFormatError := by
  cases hv : parsehex4 cfg (crcField bytes e) with
  | none => simp [classifyFrame_of_none hv]
  | some v =>
    by_cases hc : crc16 (crcCovered bytes e) = v
    · simp [classifyFrame_of_eq hv hc]
    · simp [classifyFrame_of_ne hv hc]

theorem classify_pending_of_open {cfg : Config} {s : List Byte} (h0 : s[0]? = some 0x02)
    (hopen : ∀ e, firstEtx s = some e → s.length < e + 5) : classify cfg s = .pending :=
  (classify_eq_pending_iff cfg s).2 ⟨by simp [h0], by simp [h0], fun _ => hopen⟩

theorem classify_pending_of_raw {cfg : Config} {s : List Byte} {a : Byte} (h0 : s[0]? = some a) (hstx : a ≠ 0x02)
    (hack : a ≠ 0x06) (hnak : a ≠ 0x15) : classify cfg s = .pending :=
  (classify_eq_pending_iff cfg s).2 ⟨by simpa [h0] using hack, by simpa [h0] using hnak,
    fun h => absurd (Option.some.inj (h0.symm.trans h)) hstx⟩

/-- A byte other than ETX after a frame without one. -/
theorem firstEtx_concat_of_ne {s : List Byte} {b : Byte} (h : firstEtx s = none) (hb : b ≠ 0x03) :
    firstEtx (s ++ [b]) = none := by
  cases s with
  | nil => rfl
  | cons a t =>
    rw [firstEtx_cons_eq_none_iff] at h
    rw [List.cons_append, firstEtx_cons_eq_none_iff]
    exact fun hmem => (List.mem_append.1 hmem).elim h fun hmem => hb (List.mem_singleton.1 hmem).symm

/-- ETX after a frame without one. -/
theorem firstEtx_concat_etx {s : List Byte} (hne : s ≠ []) (h : firstEtx s = none) :
    firstEtx (s ++ [0x03]) = some s.length := by
  cases s with
  | nil => exact absurd rfl hne
  | cons a t => exact firstEtx_frame ((firstEtx_cons_eq_none_iff a t).1 h) a []

/-- Settles O34: the rows of the end of the stream by `classifyEos`, those of a push by `classify` on one byte more. -/
theorem parserTransitions : Obligations.ParserTransitions := by
  refine ⟨fun s t hres hexec => ?eos, fun s t b hres hroom hexec => ?push⟩
  case eos =>
    cases (exec_fpEos_of_pending hres).symm.trans hexec
    refine ⟨fun hnil => ?_, fun hne => ?_⟩
    · have hv : classifyEos s.cfg s.acc = .noData := by rw [hnil, classifyEos_nil]
      rw [hv]
      exact ⟨rfl, hnil⟩
    · simp [classifyEos_of_ne_nil s.cfg hne]
  case push =>
    cases (exec_fpPush_of_room b hres hroom).symm.trans hexec
    simp only [State.respondStatus_res, State.respondStatus_acc, State.latch_acc, State.append_acc]
    have hpending (h : classify s.cfg (s.acc ++ [b]) = .pending) :
        ((s.append b).latch (classify s.cfg (s.acc ++ [b]))).res = .pending :=
      (State.latch_res_eq_pending_iff (by simpa using hres) _).2 h
    have hhead {a : Byte} (h : s.acc[0]? = some a) : (s.acc ++ [b])[0]? = some a := by
      rw [List.getElem?_append_left (List.getElem?_eq_some_iff.1 h).1, h]
    have hlen : (s.acc ++ [b]).length = s.acc.length + 1 := by simp
    refine ⟨?ack, ?nak, ?first, ?body, ?etx, ?field, ?complete, ?raw⟩
    case ack =>
      rintro hnil rfl
      rw [hnil, List.nil_append, classify_ack]
      rfl
    case nak =>
      rintro hnil rfl
      rw [hnil, List.nil_append, classify_nak]
      rfl
    case first =>
      intro hnil hack hnak
      refine ⟨hpending ?_, by rw [hnil, List.nil_append]⟩
      rw [hnil, List.nil_append]
      by_cases hstx : b = 0x02
      · exact hstx ▸ classify_pending_of_open rfl (by simp [firstEtx, etxFrom])
      · exact classify_pending_of_raw rfl hstx hack hnak
    case body =>
      intro h0 hnone hb
      have hnone' := firstEtx_concat_of_ne hnone hb
      exact ⟨hpending (classify_pending_of_open (hhead h0) fun e he => by cases hnone'.symm.trans he), hnone'⟩
    case etx =>
      rintro h0 hnone rfl
      have hsome := firstEtx_concat_etx (by rintro hnil; simp [hnil] at h0) hnone
      refine ⟨hpending (classify_pending_of_open (hhead h0) fun e he => ?_), hsome⟩
      cases hsome.symm.trans he
      omega
    case field =>
      intro e k h0 he hk hlt
      have he' := firstEtx_append [b] he
      refine ⟨hpending (classify_pending_of_open (hhead h0) fun j hj => ?_), he', by omega⟩
      cases he'.symm.trans hj
      omega
    case complete =>
      intro e h0 he hk
      have hframe : classify s.cfg (s.acc ++ [b]) = classifyFrame s.cfg (s.acc ++ [b]) e := by
        obtain ⟨hack, hnak, hne⟩ := classifyFrame_ne s.cfg (s.acc ++ [b]) e
        exact (classify_eq_iff_of_frame s.cfg _ hack hnak hne).2
          ⟨hhead h0, e, firstEtx_append [b] he, by omega, rfl⟩
      rw [hframe]
      exact State.latch_classifyFrame_res _ s.cfg _ e
    case raw =>
      intro a h0 hstx hack hnak
      exact ⟨hpending (classify_pending_of_raw (hhead h0) hstx hack hnak), hhead h0⟩

/-! ### Reading the text -/

theorem textWord_getLsbD_eight (b : Byte) : (textWord b).getLsbD 8 = false := by simp [textWord]

theorem textWord_extractLsb' (b : Byte) : (textWord b).extractLsb' 0 8 = b := by
  have h := textByte_textWord b
  rw [textByte, textWord_getLsbD_eight] at h
  exact Option.some.inj h

theorem State.unread_of_end {s : State} (h : ¬ s.rp < s.hi) : s.unread = [] := by
  rw [State.unread, Nat.sub_eq_zero_of_le (Nat.not_lt.1 h), List.take_zero]

/-- The byte at `RP`, then what is unread after it. -/
theorem State.unread_of_lt {s : State} (hlt : s.rp < s.hi) {b : Byte} (hb : s.acc[s.rp]? = some b) :
    s.unread = b :: { s with rp := s.rp + 1 }.unread := by
  obtain ⟨hlen, rfl⟩ := List.getElem?_eq_some_iff.1 hb
  have hsub : s.hi - s.rp = s.hi - (s.rp + 1) + 1 := by omega
  rw [State.unread, List.drop_eq_getElem_cons hlen, hsub, List.take_succ_cons]
  rfl

/-- One `FP.GET` for each unread byte, and one for `END`. -/
theorem drainWithin_unread (n : Nat) {s : State} (hwin : s.rp + n = s.hi) (hlen : s.hi ≤ s.acc.length) :
    drainWithin (n + 1) s = some (s.unread, { s with rp := s.hi, resp := some endWord }) := by
  induction n generalizing s with
  | zero =>
    have hend : ¬ s.rp < s.hi := by omega
    have hstate : s.respond endWord = { s with rp := s.hi, resp := some endWord } :=
      congrArg (fun rp => ({ s with rp := rp, resp := some endWord } : State)) hwin
    rw [drainWithin, exec_fpGet_of_end hend, State.unread_of_end hend, ← hstate]
    rfl
  | succ n ih =>
    have hlt : s.rp < s.hi := by omega
    have hb : s.acc[s.rp]? = some s.acc[s.rp] := List.getElem?_eq_getElem (by omega)
    have hrest := ih (s := { s with rp := s.rp + 1 }.respond (textWord s.acc[s.rp])) (by simp; omega) hlen
    rw [drainWithin, exec_fpGet_of_lt hlt hb]
    simp only [State.respond_resp, textWord_getLsbD_eight, textWord_extractLsb', hrest, State.unread_of_lt hlt hb]
    rfl

/-- Settles O33: by the number of bytes unread. -/
theorem drainReturnsTheRestOfTheText : Obligations.DrainReturnsTheRestOfTheText := by
  intro s hrp hhi
  exact drainWithin_unread (s.hi - s.rp) (by omega) hhi

/-! ### Pushes that find a verdict -/

theorem fpFeed_cons (b : Byte) (bytes : List Byte) : fpFeed (b :: bytes) = .fpPush b :: fpFeed bytes := rfl

theorem runCommands_fpFeed_of_terminal (bytes : List Byte) {s : State} (h : s.res ≠ .pending) :
    ∃ r, runCommands (fpFeed bytes) s = .next { s with resp := r } ∧
      responses (fpFeed bytes) s = List.replicate bytes.length (s.statw true) := by
  induction bytes generalizing s with
  | nil => exact ⟨s.resp, rfl, rfl⟩
  | cons b bytes ih =>
    have hpush := exec_fpPush_of_terminal b h
    obtain ⟨r, hrun, hresponses⟩ := ih (s := s.respondStatus true) h
    refine ⟨r, (runCommands_cons _ hpush).trans hrun, ?_⟩
    rw [fpFeed_cons, responses_cons _ hpush, hresponses]
    rfl

/-- The parser after `FP.RST` and one byte on which the verdict is `v`. -/
def State.decidedBy (s : State) (b : Byte) (v : Verdict) : State := ((s.clearParser.respond 0x0000).append b).latch v

/-- A byte that is a verdict by itself: whatever follows is dropped. -/
theorem runCommands_decidedBy {s : State} {b : Byte} {v : Verdict} (hv : classify s.cfg [b] = v) (hne : v ≠ .pending)
    (hroom : s.cfg.accMax ≠ some 0) (rest : List Byte) :
    ∃ r, runCommands ([.fpRst] ++ fpFeed (b :: rest)) s = .next { s.decidedBy b v with resp := r } ∧
      responses ([.fpRst] ++ fpFeed (b :: rest)) s =
        0x0000 :: (s.decidedBy b v).statw false :: List.replicate rest.length ((s.decidedBy b v).statw true) := by
  have hclear := runCommands_singleton (exec_fpRst s)
  have hpush : exec (.fpPush b) (s.clearParser.respond 0x0000) = .next ((s.decidedBy b v).respondStatus false) := by
    rw [exec_fpPush_of_room b rfl hroom]
    exact congrArg (fun d => Host.Outcome.next ((s.decidedBy b d).respondStatus false)) hv
  have hterminal : ((s.decidedBy b v).respondStatus false).res ≠ .pending := fun h =>
    hne ((State.latch_res_eq_pending_iff (s := (s.clearParser.respond 0x0000).append b) rfl v).1 h)
  obtain ⟨r, hrun, hresponses⟩ := runCommands_fpFeed_of_terminal rest hterminal
  refine ⟨r, ?_, ?_⟩
  · rw [runCommands_append _ hclear, fpFeed_cons, runCommands_cons _ hpush, hrun]
    rfl
  · rw [responses_append _ hclear, fpFeed_cons, responses_cons _ hpush, hresponses]
    rfl

/-- The status word as a number while the stream is open (R78). -/
theorem State.statw_of_open {s : State} {r : ResultCode} (heosf : s.eosf = false) (hres : s.res = r) (drop : Bool) :
    s.statw drop = BitVec.ofNat 16 ((if drop then 0x0100 else 0) + r.code.toNat) := by
  rw [State.statw, heosf, hres]
  cases drop <;> cases r <;> decide

/-- Settles O36: both control bytes are a verdict by themselves. -/
theorem controlByteDecidesAlone : Obligations.ControlByteDecidesAlone := by
  refine fun s rest hroom => ⟨?ack, ?nak⟩
  case ack =>
    obtain ⟨r, hrun, hresponses⟩ := runCommands_decidedBy (classify_ack s.cfg []) (by simp) hroom rest
    rw [State.statw_of_open (r := .ack) rfl rfl, State.statw_of_open (r := .ack) rfl rfl] at hresponses
    exact ⟨_, hrun, rfl, rfl, hresponses⟩
  case nak =>
    obtain ⟨r, hrun, hresponses⟩ := runCommands_decidedBy (classify_nak s.cfg []) (by simp) hroom rest
    rw [State.statw_of_open (r := .nak) rfl rfl, State.statw_of_open (r := .nak) rfl rfl] at hresponses
    exact ⟨_, hrun, rfl, rfl, hresponses⟩

end Sys2Proof.Machine
end

section
/-! One reply through the parser (R151, R164, R229). What the parser has heard is a matter of its own registers, so that
commands of the other units do not enter; its reply is the one of the reader that appends chunk by chunk. -/

namespace Sys2Proof.Machine

/-! ### The reader: only the whole stream matters -/

/-- The bounds of a verdict's text lie in the `n` bytes it was given on. -/
def Verdict.FitsIn (n : Nat) : Verdict → Prop
  | .framedText _ hi _ _ => hi ≤ n
  | .rawText _ hi => hi ≤ n
  | .pending => True
  | .ack => True
  | .nak => True
  | .crcFormatError => True
  | .crcMismatchError _ _ => True
  | .noData => True

theorem classifyFrame_fitsIn (cfg : Config) (s : List Byte) {e : Nat} (h1 : 1 ≤ e) (h : e ≤ s.length) :
    (classifyFrame cfg s e).FitsIn s.length := by
  cases hv : parsehex4 cfg (crcField s e) with
  | none => rw [classifyFrame_of_none hv]; trivial
  | some v =>
    by_cases hc : crc16 (crcCovered s e) = v
    · rw [classifyFrame_of_eq hv hc]
      obtain ⟨-, hhi⟩ := trim_bounds cfg s h1
      exact hhi.trans h
    · rw [classifyFrame_of_ne hv hc]; trivial

theorem classify_fitsIn (cfg : Config) (s : List Byte) : (classify cfg s).FitsIn s.length := by
  obtain ⟨-, h⟩ | ⟨-, h⟩ | ⟨-, e, he, hlen, h⟩ | ⟨-, -, -, h⟩ := classify_cases cfg s
  · rw [h]; trivial
  · rw [h]; trivial
  · rw [h]; exact classifyFrame_fitsIn cfg s (one_le_firstEtx he) (by omega)
  · rw [h]; trivial

theorem classifyEos_fitsIn (cfg : Config) (s : List Byte) : (classifyEos cfg s).FitsIn s.length := by
  by_cases hnil : s = []
  · rw [hnil, classifyEos_nil]; trivial
  · rw [classifyEos_of_ne_nil cfg hnil]
    obtain ⟨-, hhi⟩ := trim_bounds cfg s (Nat.zero_le s.length)
    exact hhi

/-- A window in the first part is a window of the whole. -/
theorem take_drop_append {p : List Byte} (q : List Byte) (lo : Nat) {hi : Nat} (h : hi ≤ p.length) :
    ((p ++ q).drop lo).take (hi - lo) = (p.drop lo).take (hi - lo) := by
  rw [← List.drop_take, ← List.drop_take, List.take_append_of_le_length h]

theorem Verdict.reply_append {p : List Byte} (q : List Byte) {v : Verdict} (h : v.FitsIn p.length) :
    v.reply (p ++ q) = v.reply p := by
  cases v with
  | framedText lo hi r c => rw [Verdict.reply, take_drop_append q lo h]; rfl
  | rawText lo hi => rw [Verdict.reply, take_drop_append q lo h]; rfl
  | _ => rfl

theorem readChunks_cons_of_pending {cfg : Config} {acc c : List Byte} (h : classify cfg (acc ++ c) = .pending)
    (rest : List (List Byte)) : readChunks cfg acc (c :: rest) = readChunks cfg (acc ++ c) rest := by
  rw [readChunks, h]

theorem readChunks_cons_of_ne {cfg : Config} {acc c : List Byte} (h : classify cfg (acc ++ c) ≠ .pending)
    (rest : List (List Byte)) :
    readChunks cfg acc (c :: rest) = (classify cfg (acc ++ c)).reply (acc ++ c) := by
  rw [readChunks]
  split
  next hpending => exact absurd hpending h
  next => rfl

/-- A stream in one chunk: on a pending stream the end decides. -/
theorem readChunks_whole_of_pending {cfg : Config} {w : List Byte} (h : classify cfg w = .pending) :
    readChunks cfg [] [w] = (classifyEos cfg w).reply w :=
  readChunks_cons_of_pending (acc := []) h []

theorem readChunks_whole_of_ne {cfg : Config} {w : List Byte} (h : classify cfg w ≠ .pending) :
    readChunks cfg [] [w] = (classify cfg w).reply w :=
  readChunks_cons_of_ne (acc := []) h []

/-- Bytes after a verdict change no reply. -/
theorem readChunks_whole_append {cfg : Config} {p : List Byte} (q : List Byte) (h : classify cfg p ≠ .pending) :
    readChunks cfg [] [p ++ q] = readChunks cfg [] [p] := by
  have hv := classify_append cfg q h
  rw [readChunks_whole_of_ne h, readChunks_whole_of_ne (hv ▸ h), hv, Verdict.reply_append q (classify_fitsIn cfg p)]

/-- R164: how the stream was cut does not matter. -/
theorem readChunks_eq_whole {cfg : Config} (chunks : List (List Byte)) {acc : List Byte}
    (h : classify cfg acc = .pending) : readChunks cfg acc chunks = readChunks cfg [] [acc ++ chunks.flatten] := by
  induction chunks generalizing acc with
  | nil => rw [List.flatten_nil, List.append_nil, readChunks_whole_of_pending h]; rfl
  | cons c rest ih =>
    rw [List.flatten_cons, ← List.append_assoc]
    by_cases hc : classify cfg (acc ++ c) = .pending
    · rw [readChunks_cons_of_pending hc, ih hc]
    · rw [readChunks_cons_of_ne hc, readChunks_whole_append _ hc, readChunks_whole_of_ne hc]

theorem readChunks_flatten (cfg : Config) (chunks : List (List Byte)) :
    readChunks cfg [] chunks = readChunks cfg [] [chunks.flatten] :=
  readChunks_eq_whole chunks rfl

/-! ### What the parser has heard -/

/-- A cleared parser that then holds the bytes `p`, with the verdict on them latched. -/
def parserAfter (cfg : Config) (p : List Byte) : State := { State.initial cfg with acc := p }.latch (classify cfg p)

/-- The parser has received the stream `w` from its start: it holds a part `p` of it, all of it unless there was a
verdict on `p`. -/
def State.Heard (s : State) (w : List Byte) : Prop :=
  ∃ p q, w = p ++ q ∧ (q = [] ∨ classify s.cfg p ≠ .pending) ∧ SameParser (parserAfter s.cfg p) s

theorem parserAfter_of_pending {cfg : Config} {p : List Byte} (h : classify cfg p = .pending) :
    parserAfter cfg p = { State.initial cfg with acc := p } := by
  rw [parserAfter, h]
  rfl

theorem parserAfter_res_eq_pending_iff (cfg : Config) (p : List Byte) :
    (parserAfter cfg p).res = .pending ↔ classify cfg p = .pending :=
  State.latch_res_eq_pending_iff rfl _

theorem State.ParserCleared.heard {s : State} (h : s.ParserCleared) : s.Heard [] := ⟨[], [], rfl, .inl rfl, h⟩

theorem State.Heard.congr {s t : State} {w : List Byte} (h : s.Heard w) (hcfg : t.cfg = s.cfg)
    (hsame : SameParser s t) : t.Heard w := by
  obtain ⟨p, q, hw, hq, hp⟩ := h
  exact ⟨p, q, hw, hcfg ▸ hq, hcfg ▸ hp.trans hsame⟩

/-- A parser without a verdict holds all it was sent. -/
theorem State.Heard.sameParser_of_pending {s : State} {w : List Byte} (h : s.Heard w)
    (hw : classify s.cfg w = .pending) : SameParser { State.initial s.cfg with acc := w } s := by
  obtain ⟨p, q, rfl, hq, hp⟩ := h
  have hpending := classify_pending_of_append hw
  obtain rfl : q = [] := hq.resolve_right fun hne => hne hpending
  rw [List.append_nil] at hw ⊢
  rwa [parserAfter_of_pending hw] at hp

/-- One byte more, where there is room for it. -/
theorem State.Heard.push {s t : State} {w : List Byte} {b : Byte} (h : s.Heard w)
    (hroom : ∀ m, s.cfg.accMax = some m → w.length < m) (hexec : exec (.fpPush b) s = .next t) : t.Heard (w ++ [b]) := by
  obtain ⟨p, q, rfl, hq, hp⟩ := h
  obtain ⟨hacc, -, hres, -⟩ := id hp
  by_cases hpending : classify s.cfg p = .pending
  · obtain rfl : q = [] := hq.resolve_right fun hne => hne hpending
    rw [parserAfter_of_pending hpending] at hp hacc hres
    have hnotFull : s.cfg.accMax ≠ some s.acc.length := fun hfull => by
      have hlt := hroom _ hfull
      rw [hacc, List.append_nil] at hlt
      exact Nat.lt_irrefl _ hlt
    cases (exec_fpPush_of_room b hres hnotFull).symm.trans hexec
    refine ⟨p ++ [b], [], by simp, .inl rfl, ?_⟩
    rw [State.respondStatus_cfg, State.latch_cfg, State.append_cfg, hacc]
    exact (hp.append b).latch (classify s.cfg (p ++ [b]))
  · have hterminal : s.res ≠ .pending := hres ▸ mt (parserAfter_res_eq_pending_iff s.cfg p).1 hpending
    cases (exec_fpPush_of_terminal b hterminal).symm.trans hexec
    exact ⟨p, q ++ [b], by simp, .inr hpending, hp⟩

theorem State.Heard.feed {s : State} {w : List Byte} (bytes : List Byte) (h : s.Heard w)
    (hroom : ∀ m, s.cfg.accMax = some m → (w ++ bytes).length ≤ m) :
    ∃ t, runCommands (fpFeed bytes) s = .next t ∧ t.cfg = s.cfg ∧ t.Heard (w ++ bytes) := by
  induction bytes generalizing s w with
  | nil => exact ⟨s, rfl, rfl, by rwa [List.append_nil]⟩
  | cons b bytes ih =>
    obtain ⟨u, hu⟩ := exec_completes (.fpPush b) s
    rw [List.append_cons] at hroom ⊢
    have hlt : ∀ m, s.cfg.accMax = some m → w.length < m := fun m hm => by
      have hle := hroom m hm
      simp only [List.length_append, List.length_singleton] at hle
      omega
    have hheard : u.Heard (w ++ [b]) := h.push hlt hu
    obtain ⟨t, hrun, hcfg, ht⟩ := ih hheard (exec_cfg hu ▸ hroom)
    exact ⟨t, (runCommands_cons _ hu).trans hrun, hcfg.trans (exec_cfg hu), ht⟩

theorem runCommands_fpRst_fpFeed {s : State} {w : List Byte} (hroom : ∀ m, s.cfg.accMax = some m → w.length ≤ m) :
    ∃ t, runCommands ([.fpRst] ++ fpFeed w) s = .next t ∧ t.cfg = s.cfg ∧ t.Heard w := by
  have hclear : (s.clearParser.respond 0x0000).Heard [] := State.ParserCleared.heard (SameParser.refl s.clearParser)
  obtain ⟨t, hrun, hcfg, ht⟩ := hclear.feed w hroom
  exact ⟨t, (runCommands_append _ (runCommands_singleton (exec_fpRst s))).trans hrun, hcfg, ht⟩

/-! ### The reply in the registers -/

/-- The parser has decided for the reply `r`, and its text is still unread. -/
structure State.Holds (s : State) (r : Reply) : Prop where
  decided : s.ParseOver
  reply : s.reply = r
  unread : s.rp = s.lo
  inside : s.hi ≤ s.acc.length

theorem SameParser.reply {s t : State} (h : SameParser s t) : t.reply = s.reply := by
  obtain ⟨hacc, -, hres, hlo, hhi, -, hrx, hcalc⟩ := h
  simp only [State.reply, State.text, hacc, hres, hlo, hhi, hrx, hcalc]

theorem State.Holds.congr {s t : State} {r : Reply} (h : s.Holds r) (hsame : SameParser s t) : t.Holds r := by
  have hreply := hsame.reply
  obtain ⟨hacc, -, hres, hlo, hhi, hrp, -⟩ := hsame
  exact ⟨fun hpending => h.decided (hres ▸ hpending), hreply.trans h.reply, by rw [hrp, hlo, h.unread],
    by rw [hhi, hacc]; exact h.inside⟩

/-- A verdict latched on a pending parser is its reply. -/
theorem State.holds_latch (cfg : Config) (w : List Byte) (eosf : Bool) {v : Verdict} (hne : v ≠ .pending)
    (hfits : v.FitsIn w.length) : ({ State.initial cfg with acc := w, eosf := eosf }.latch v).Holds (v.reply w) := by
  refine ⟨fun h => hne ((State.latch_res_eq_pending_iff rfl v).1 h), ?_, ?_, ?_⟩
  · cases v <;> rfl
  · cases v <;> rfl
  · cases v with
    | framedText | rawText => exact hfits
    | _ => exact Nat.zero_le _

theorem State.Heard.holds {s : State} {w : List Byte} (h : s.Heard w) (hw : classify s.cfg w ≠ .pending) :
    s.Holds (readChunks s.cfg [] [w]) := by
  obtain ⟨p, q, rfl, hq, hp⟩ := h
  have hpne : classify s.cfg p ≠ .pending := hq.elim (fun hnil => by rwa [hnil, List.append_nil] at hw) id
  rw [readChunks_whole_append q hpne, readChunks_whole_of_ne hpne]
  exact (State.holds_latch s.cfg p false hpne (classify_fitsIn s.cfg p)).congr hp

theorem classifyEos_ne_pending (cfg : Config) (w : List Byte) : classifyEos cfg w ≠ .pending := by
  by_cases hnil : w = []
  · simp [hnil, classifyEos_nil]
  · simp [classifyEos_of_ne_nil cfg hnil]

theorem State.Heard.holds_of_fpEos {s t : State} {w : List Byte} (h : s.Heard w) (hw : classify s.cfg w = .pending)
    (hexec : exec .fpEos s = .next t) : t.Holds (readChunks s.cfg [] [w]) := by
  have hsame := h.sameParser_of_pending hw
  obtain ⟨hacc, -, hres, -⟩ := id hsame
  have hv : classifyEos s.cfg s.acc = classifyEos s.cfg w := by rw [hacc]
  cases (exec_fpEos_of_pending hres).symm.trans hexec
  rw [readChunks_whole_of_pending hw, hv]
  exact (State.holds_latch s.cfg w true (classifyEos_ne_pending s.cfg w) (classifyEos_fitsIn s.cfg w)).congr
    (hsame.setEosf.latch (classifyEos s.cfg w))

/-- `FP.EOS` at the end of any stream: it decides a pending parser and leaves a verdict alone. -/
theorem State.Heard.fpEos {s : State} {w : List Byte} (h : s.Heard w) :
    ∃ t, exec .fpEos s = .next t ∧ t.Holds (readChunks s.cfg [] [w]) := by
  obtain ⟨t, ht⟩ := exec_completes .fpEos s
  refine ⟨t, ht, ?_⟩
  by_cases hw : classify s.cfg w = .pending
  · exact h.holds_of_fpEos hw ht
  · have hholds := h.holds hw
    cases (exec_fpEos_of_terminal hholds.decided).symm.trans ht
    exact hholds.congr (SameParser.refl s)

/-- Settles O37: the bytes one by one are the stream in one chunk, and so is any cutting of it. -/
theorem fragmentationLosesNothing : Obligations.FragmentationLosesNothing := by
  intro s chunks hroom
  obtain ⟨u, hfeed, hcfg, hheard⟩ := runCommands_fpRst_fpFeed hroom
  obtain ⟨t, heos, hholds⟩ := hheard.fpEos
  refine ⟨t, (runCommands_append _ hfeed).trans (runCommands_singleton heos), ?_, hholds.decided⟩
  rw [hholds.reply, hcfg, ← readChunks_flatten]

end Sys2Proof.Machine
end

section
/-! The host's duties (R229): the commands that may be issued at any time do not reach the parser, so a sequence gives the
parser what its other commands alone would give it; and those are a clear, the stream, its end and the reads. -/

namespace Sys2Proof.Machine

/-! ### Reading the whole text -/

theorem textRead_cons {i : Instr} {s t : State} (rest : List Instr) (h : exec i s = .next t) :
    textRead (i :: rest) s = (if i = .fpGet then t.resp.toList.filterMap textByte else []) ++ textRead rest t := by
  rw [textRead, h]

theorem textRead_fpGet_cons {s t : State} {w : Word} (rest : List Instr) (h : exec .fpGet s = .next t)
    (hresp : t.resp = some w) : textRead (.fpGet :: rest) s = (textByte w).toList ++ textRead rest t := by
  rw [textRead_cons rest h, if_pos rfl, hresp]
  cases hb : textByte w <;> simp [hb]

theorem textRead_eq_nil {commands : List Instr} (h : .fpGet ∉ commands) (s : State) : textRead commands s = [] := by
  induction commands generalizing s with
  | nil => rfl
  | cons i rest ih =>
    rw [List.mem_cons, not_or] at h
    obtain ⟨hi, hrest⟩ := h
    obtain ⟨t, ht⟩ := exec_completes i s
    rw [textRead_cons rest ht, if_neg (Ne.symm hi), ih hrest, List.append_nil]

/-- `FP.GET` often enough reads all that is unread, and moves `RP` only. -/
theorem runCommands_replicate_fpGet (n : Nat) {s : State} (hin : s.hi ≤ s.acc.length) (hn : s.hi - s.rp ≤ n) :
    ∃ t, runCommands (List.replicate n .fpGet) s = .next t ∧ t.cfg = s.cfg ∧ t.reply = s.reply ∧
      textRead (List.replicate n .fpGet) s = s.unread := by
  induction n generalizing s with
  | zero => exact ⟨s, rfl, rfl, rfl, (State.unread_of_end (by omega)).symm⟩
  | succ n ih =>
    rw [List.replicate_succ]
    by_cases hlt : s.rp < s.hi
    · have hb : s.acc[s.rp]? = some s.acc[s.rp] := List.getElem?_eq_getElem (by omega)
      have hget := exec_fpGet_of_lt hlt hb
      obtain ⟨t, hrun, hcfg, hreply, htext⟩ := ih (s := { s with rp := s.rp + 1 }.respond (textWord s.acc[s.rp])) hin
        (by simp only [State.respond_hi, State.respond_rp]; omega)
      refine ⟨t, (runCommands_cons _ hget).trans hrun, hcfg, hreply, ?_⟩
      rw [textRead_fpGet_cons _ hget rfl, textByte_textWord, htext, State.unread_of_lt hlt hb]
      rfl
    · have hget := exec_fpGet_of_end hlt
      obtain ⟨t, hrun, hcfg, hreply, htext⟩ := ih (s := s.respond endWord) hin
        (by simp only [State.respond_hi, State.respond_rp]; omega)
      refine ⟨t, (runCommands_cons _ hget).trans hrun, hcfg, hreply, ?_⟩
      rw [textRead_fpGet_cons _ hget rfl, textByte_endWord, htext]
      rfl

theorem State.Holds.unread_eq_text {s : State} {r : Reply} (h : s.Holds r) : s.unread = r.text := by
  rw [← h.reply, State.unread, h.unread]
  rfl

theorem State.Holds.window_le {s : State} {r : Reply} (h : s.Holds r) : s.hi - s.rp ≤ r.text.length := by
  have hin := h.inside
  rw [← h.unread_eq_text, State.unread, List.length_take, List.length_drop]
  omega

/-! ### Commands that may be issued at any time -/

theorem exec_sameParser_of_issuableAnyTime {i : Instr} {s t : State} (hi : issuableAnyTime i = true)
    (h : exec i s = .next t) : SameParser s t := by
  have hrst : i ≠ .sysRst := by rintro rfl; cases hi
  by_cases hunit : unitOf i = .parser
  · cases i with
    | fpStat | fpRxcrc | fpCalc => cases h; exact SameParser.refl s
    | fpRst | fpPush | fpEos | fpGet => cases hi
    | _ => cases hunit
  · exact exec_sameParser_of_unit_ne hrst hunit h

/-- The other commands are those of the parser, and `SYS.RST`, which clears it. -/
theorem exec_sameParser_of_not_issuableAnyTime {i : Instr} {s s' t t' : State} (hi : issuableAnyTime i = false)
    (hcfg : s'.cfg = s.cfg) (hsame : SameParser s s') (h : exec i s = .next t) (h' : exec i s' = .next t') :
    SameParser t t' ∧ t'.resp = t.resp := by
  by_cases hunit : unitOf i = .parser
  · exact exec_parser_sameParser hunit hcfg hsame h h'
  · cases i with
    | sysRst => cases h; cases h'; exact ⟨SameParser.refl s.clearParser, rfl⟩
    | fpRst | fpPush | fpEos | fpStat | fpGet | fpRxcrc | fpCalc => exact absurd rfl hunit
    | _ => cases hi

/-- Leaving the commands out that may be issued at any time changes nothing for the parser and for what is read. -/
theorem runCommands_filter {commands : List Instr} {s s' u : State} (hcfg : s'.cfg = s.cfg) (hsame : SameParser s s')
    (hu : runCommands (commands.filter fun i => !issuableAnyTime i) s = .next u) :
    ∃ u', runCommands commands s' = .next u' ∧ u'.cfg = u.cfg ∧ SameParser u u' ∧
      textRead commands s' = textRead (commands.filter fun i => !issuableAnyTime i) s := by
  induction commands generalizing s s' with
  | nil =>
    cases hu
    exact ⟨s', rfl, hcfg, hsame, rfl⟩
  | cons i rest ih =>
    obtain ⟨t', ht'⟩ := exec_completes i s'
    cases hi : issuableAnyTime i with
    | true =>
      rw [List.filter_cons_of_neg (by simp [hi])] at hu ⊢
      have hget : i ≠ .fpGet := by rintro rfl; cases hi
      obtain ⟨u', hrun, hrest⟩ := ih ((exec_cfg ht').trans hcfg)
        (hsame.trans (exec_sameParser_of_issuableAnyTime hi ht')) hu
      refine ⟨u', (runCommands_cons _ ht').trans hrun, ?_⟩
      rwa [textRead_cons rest ht', if_neg hget]
    | false =>
      rw [List.filter_cons_of_pos (by simp [hi])] at hu ⊢
      obtain ⟨t, ht⟩ := exec_completes i s
      obtain ⟨hsame', hresp⟩ := exec_sameParser_of_not_issuableAnyTime hi hcfg hsame ht ht'
      rw [runCommands_cons _ ht] at hu
      obtain ⟨u', hrun, hcfg', hu', htext⟩ := ih (by rw [exec_cfg ht', exec_cfg ht, hcfg]) hsame' hu
      refine ⟨u', (runCommands_cons _ ht').trans hrun, hcfg', hu', ?_⟩
      rw [textRead_cons rest ht', textRead_cons _ ht, hresp, htext]

/-! ### One reply -/

/-- Duty (a): the stream begins on a cleared parser. -/
theorem heard_of_clear {s : State} {clear : List Instr}
    (h : clear = [.fpRst] ∨ clear = [.sysRst] ∨ (clear = [] ∧ s.ParserCleared)) :
    ∃ t, runCommands clear s = .next t ∧ t.cfg = s.cfg ∧ t.Heard [] ∧ .fpGet ∉ clear := by
  have hcleared : s.clearParser.ParserCleared := SameParser.refl s.clearParser
  obtain rfl | rfl | ⟨rfl, hs⟩ := h
  · exact ⟨_, runCommands_singleton (exec_fpRst s), rfl, hcleared.heard, by simp⟩
  · exact ⟨_, runCommands_singleton (exec_sysRst s), rfl, hcleared.heard, by simp⟩
  · exact ⟨s, rfl, rfl, hs.heard, by simp⟩

/-- Duty (c): the end of the stream is told where it decides; either way the reply is that of the whole stream. -/
theorem State.Heard.holds_of_ends {s : State} {taken left : List Byte} {ends : List Instr} (h : s.Heard taken)
    (hends : (left = [] ∧ classify s.cfg taken = .pending ∧ ends = [.fpEos]) ∨
      (classify s.cfg taken ≠ .pending ∧ ends = [])) :
    ∃ t, runCommands ends s = .next t ∧ t.cfg = s.cfg ∧ t.Holds (readChunks s.cfg [] [taken ++ left]) ∧
      .fpGet ∉ ends := by
  obtain ⟨rfl, -, rfl⟩ | ⟨hne, rfl⟩ := hends
  · obtain ⟨t, ht, hholds⟩ := h.fpEos
    exact ⟨t, runCommands_singleton ht, exec_cfg ht, by rwa [List.append_nil], by simp⟩
  · exact ⟨s, rfl, rfl, by rw [readChunks_whole_append left hne]; exact h.holds hne, by simp⟩

theorem fpGet_notMem_fpFeed (bytes : List Byte) : .fpGet ∉ fpFeed bytes := by simp [fpFeed]

/-- A host that keeps its duties gets the reply of the stream, and reads its text. -/
theorem reply_of_followsHostDuties {s : State} {w : List Byte} {commands : List Instr}
    (h : FollowsHostDuties s w commands) (hroom : ∀ m, s.cfg.accMax = some m → w.length ≤ m) :
    ∃ t, runCommands commands s = .next t ∧ t.cfg = s.cfg ∧ t.reply = readChunks s.cfg [] [w] ∧
      textRead commands s = (readChunks s.cfg [] [w]).text := by
  obtain ⟨clear, ends, taken, left, reads, hclear, rfl, hends, hreads, hfilter⟩ := h
  obtain ⟨a, hrunA, hcfgA, hheardA, hgetA⟩ := heard_of_clear hclear
  have hroomA : ∀ m, a.cfg.accMax = some m → ([] ++ taken).length ≤ m := fun m hm => by
    have hle := hroom m (hcfgA ▸ hm)
    rw [List.length_append] at hle
    rw [List.nil_append]
    omega
  obtain ⟨b, hrunB, hcfgB, hheardB⟩ := hheardA.feed taken hroomA
  obtain ⟨c, hrunC, hcfgC, hholds, hgetC⟩ := hheardB.holds_of_ends (by rwa [hcfgB, hcfgA])
  rw [hcfgB, hcfgA, List.nil_append] at hholds
  obtain ⟨d, hrunD, hcfgD, hreplyD, htextD⟩ :=
    runCommands_replicate_fpGet reads hholds.inside (hholds.window_le.trans hreads)
  have hrunPart : runCommands (clear ++ fpFeed taken ++ ends) s = .next c := by
    rw [List.append_assoc, runCommands_append _ hrunA, runCommands_append _ hrunB, hrunC]
  have hgetPart : .fpGet ∉ clear ++ fpFeed taken ++ ends := by simp [hgetA, hgetC, fpGet_notMem_fpFeed]
  have hrun : runCommands (commands.filter fun i => !issuableAnyTime i) s = .next d := by
    rw [hfilter, runCommands_append _ hrunPart, hrunD]
  obtain ⟨t, hrunT, hcfgT, hsame, htext⟩ := runCommands_filter rfl (SameParser.refl s) hrun
  refine ⟨t, hrunT, by rw [hcfgT, hcfgD, hcfgC, hcfgB, hcfgA], by rw [hsame.reply, hreplyD, hholds.reply], ?_⟩
  rw [htext, hfilter, textRead_append _ hrunPart, textRead_eq_nil hgetPart, htextD, hholds.unread_eq_text,
    List.nil_append]

/-! ### One reply after another -/

theorem replies_of_followsHostDutiesForAll (replies : List (List (List Byte))) {s : State} {commands : List Instr}
    (h : FollowsHostDutiesForAll s (replies.map List.flatten) commands)
    (hroom : ∀ chunks ∈ replies, ∀ m, s.cfg.accMax = some m → chunks.flatten.length ≤ m) :
    (∃ t, runCommands commands s = .next t) ∧
      textRead commands s = (replies.map fun chunks => (readChunks s.cfg [] chunks).text).flatten := by
  refine ⟨runCommands_completes commands s, ?_⟩
  induction replies generalizing s commands with
  | nil =>
    have hget : .fpGet ∉ commands := fun hmem => absurd (h _ hmem) (by decide)
    rw [textRead_eq_nil hget]
    rfl
  | cons chunks replies ih =>
    obtain ⟨first, rest, t, rfl, hfirst, hrun, hrest⟩ := h
    obtain ⟨t', hrun', hcfg, -, htext⟩ := reply_of_followsHostDuties hfirst (hroom chunks List.mem_cons_self)
    obtain rfl : t = t' := Host.Outcome.next.inj (hrun.symm.trans hrun')
    have htexts := ih hrest fun c hc => hcfg ▸ hroom c (List.mem_cons_of_mem _ hc)
    rw [textRead_append _ hrun, htext, htexts, hcfg, List.map_cons, List.flatten_cons, readChunks_flatten _ chunks]

/-- Settles O38: one reply, and replies in order. -/
theorem hostDutiesGiveTheReadersReply : Obligations.HostDutiesGiveTheReadersReply := by
  refine ⟨fun s chunks commands h hroom => ?_, fun s replies commands => replies_of_followsHostDutiesForAll replies⟩
  obtain ⟨t, hrun, -, hreply, htext⟩ := reply_of_followsHostDuties h hroom
  rw [readChunks_flatten]
  exact ⟨t, hrun, hreply, htext⟩

end Sys2Proof.Machine
end

section
/-! A built frame through the parser (R166), and one that was corrupted on the way (R167, R169): the verdict on a frame is
told by its body and its field. -/

namespace Sys2Proof.Machine

/-! ### The verdict on a frame, in the registers -/

theorem reply_of_frame {s : State} {body field : List Byte} (hbody : etx ∉ body) (hfield : field.length = 4)
    (hroom : ∀ m, s.cfg.accMax = some m → body.length + 6 ≤ m) :
    ∃ t, runCommands ([.fpRst] ++ fpFeed (stx :: (body ++ etx :: field))) s = .next t ∧
      t.reply = (classify s.cfg (stx :: (body ++ etx :: field))).reply (stx :: (body ++ etx :: field)) := by
  have hlen : (stx :: (body ++ etx :: field)).length = body.length + 6 := by simp [hfield]
  obtain ⟨t, hrun, hcfg, hheard⟩ := runCommands_fpRst_fpFeed (w := stx :: (body ++ etx :: field)) (hlen ▸ hroom)
  have hne : classify s.cfg (stx :: (body ++ etx :: field)) ≠ .pending := by
    obtain ⟨-, -, hne⟩ := classifyFrame_ne s.cfg (stx :: (body ++ etx :: field)) (body.length + 1)
    rwa [classify_frame s.cfg hbody hfield]
  refine ⟨t, hrun, ?_⟩
  rw [(hheard.holds (hcfg ▸ hne)).reply, hcfg, readChunks_whole_of_ne hne]

/-- The frame as R167 and R169 write it. -/
theorem frame_eq (body field : List Byte) : [0x02] ++ body ++ [0x03] ++ field = stx :: (body ++ etx :: field) := by
  simp [stx, etx]

/-- Settles O41: a field that does not parse, and one that parses to another value. -/
theorem corruptedFieldIsDetected : Obligations.CorruptedFieldIsDetected := by
  intro s body field hbody hfield hroom
  obtain ⟨t, hrun, hreply⟩ := reply_of_frame hbody hfield hroom
  refine ⟨t, frame_eq body field ▸ hrun, fun hnone => ?format, fun v hv hne => ?mismatch⟩
  case format =>
    rw [classify_frame_of_none hbody hfield hnone] at hreply
    exact ⟨congrArg Reply.code hreply, congrArg Reply.received hreply, congrArg Reply.computed hreply⟩
  case mismatch =>
    rw [classify_frame_of_ne hbody hfield hv hne.symm] at hreply
    exact ⟨congrArg Reply.code hreply, congrArg Reply.received hreply, congrArg Reply.computed hreply⟩

/-- Settles O40: the flipped body is a body without ETX with another checksum than the field's. -/
theorem payloadBitFlipIsDetected : Obligations.PayloadBitFlipIsDetected := by
  intro s p q b k hk hbody hflip hroom
  have hbody' : etx ∉ p ++ [b ^^^ BitVec.twoPow 8 k] ++ q := by
    simp only [List.mem_append, List.mem_singleton, not_or] at hbody ⊢
    obtain ⟨⟨hp, -⟩, hq⟩ := hbody
    exact ⟨⟨hp, Ne.symm hflip⟩, hq⟩
  have hcrc : crc16 (p ++ [b ^^^ BitVec.twoPow 8 k] ++ q ++ [etx]) ≠ crc16 (p ++ [b] ++ q ++ [etx]) := by
    simpa using (crc16_ne_of_byte_ne p (q ++ [etx]) (ne_xor_twoPow b hk)).symm
  obtain ⟨t, hrun, hreply⟩ := reply_of_frame (s := s) hbody' (length_hex4 (crc16 (p ++ [b] ++ q ++ [etx])))
    fun m hm => by
      have hle := hroom m hm
      simp only [List.length_append, List.length_singleton]
      omega
  rw [classify_frame_of_ne hbody' rfl (parsehex4_hex4 s.cfg _) hcrc] at hreply
  refine ⟨t, ?_, congrArg Reply.code hreply, congrArg Reply.received hreply⟩
  rw [← frame_eq] at hrun
  simp only [← List.append_assoc] at hrun
  exact hrun

/-! ### The text of a frame -/

theorem whitespaceAt_of_getElem? {cfg : Config} {s : List Byte} {i : Nat} {b : Byte} (h : s[i]? = some b) :
    whitespaceAt cfg s i = cfg.ws.contains b := by
  rw [whitespaceAt, h]

/-- The first loop of R153 is `takeWhile` on the window. -/
theorem trimFront_eq (cfg : Config) (body : List Byte) (pre post : List Byte) :
    trimFront cfg (pre ++ (body ++ post)) pre.length body.length =
      pre.length + (body.takeWhile fun b => cfg.ws.contains b).length := by
  induction body generalizing pre with
  | nil => rfl
  | cons b body ih =>
    have hb : (pre ++ (b :: body ++ post))[pre.length]? = some b := by simp
    rw [List.length_cons, trimFront, whitespaceAt_of_getElem? hb, List.takeWhile_cons]
    split
    · have hrest := ih (pre ++ [b])
      rw [List.length_append, List.length_singleton, List.append_assoc] at hrest
      rw [List.cons_append, ← List.singleton_append, hrest, List.length_cons]
      omega
    · rfl

/-- The second loop of R153 is `rdropWhile` on the window. -/
theorem trimBack_eq (cfg : Config) (body : List Byte) (pre post : List Byte) :
    trimBack cfg (pre ++ (body ++ post)) pre.length body.length =
      pre.length + (body.rdropWhile fun b => cfg.ws.contains b).length := by
  induction body using List.reverseRecOn generalizing post with
  | nil => rfl
  | append_singleton body b ih =>
    have hb : (pre ++ (body ++ [b] ++ post))[pre.length + body.length]? = some b := by simp
    rw [List.length_append, List.length_singleton, trimBack, whitespaceAt_of_getElem? hb, List.rdropWhile_concat]
    split
    · rw [List.append_assoc body, ih]
    · simp

/-- A window trimmed is its bytes less the whitespace at both ends. -/
theorem take_drop_trim (cfg : Config) (pre body post : List Byte) :
    let bounds := trim cfg (pre ++ (body ++ post)) pre.length (pre.length + body.length)
    ((pre ++ (body ++ post)).drop bounds.1).take (bounds.2 - bounds.1) =
      (body.dropWhile fun b => cfg.ws.contains b).rdropWhile fun b => cfg.ws.contains b := by
  intro bounds
  obtain ⟨front, hfront⟩ : ∃ front, body.takeWhile (fun b => cfg.ws.contains b) = front := ⟨_, rfl⟩
  obtain ⟨back, hback⟩ : ∃ back, body.dropWhile (fun b => cfg.ws.contains b) = back := ⟨_, rfl⟩
  have hsplit : body = front ++ back := by rw [← hfront, ← hback, List.takeWhile_append_dropWhile]
  have hwhole : pre ++ (body ++ post) = (pre ++ front) ++ (back ++ post) := by simp [hsplit]
  have hlo : bounds.1 = (pre ++ front).length := by
    simp only [bounds, trim, Nat.add_sub_cancel_left, trimFront_eq, hfront, List.length_append]
  have hhi : bounds.2 = (pre ++ front).length + (back.rdropWhile fun b => cfg.ws.contains b).length := by
    have hrest : pre.length + body.length - (pre ++ front).length = back.length := by
      rw [hsplit, List.length_append, List.length_append]
      omega
    have hbounds : bounds.2 = trimBack cfg (pre ++ (body ++ post)) bounds.1 (pre.length + body.length - bounds.1) := rfl
    rw [hbounds, hlo, hrest, hwhole, trimBack_eq]
  have hprefix := List.rdropWhile_prefix (fun b => cfg.ws.contains b) back
  rw [hhi, hlo, Nat.add_sub_cancel_left, hwhole, List.drop_left, hback,
    List.take_append_of_le_length hprefix.length_le, ← List.prefix_iff_eq_take.1 hprefix]

/-! ### A built frame -/

theorem State.Heard.eosf {s : State} {w : List Byte} (h : s.Heard w) : s.eosf = false := by
  obtain ⟨p, q, -, -, -, heosf, -⟩ := h
  exact heosf.trans (State.latch_eosf _ _)

/-- A push with room answers the status of the state after it. -/
theorem State.Heard.resp_push {s t : State} {w : List Byte} {b : Byte} (h : s.Heard w)
    (hw : classify s.cfg w = .pending) (hroom : ∀ m, s.cfg.accMax = some m → w.length < m)
    (hexec : exec (.fpPush b) s = .next t) : t.resp = some (t.statw false) := by
  obtain ⟨hacc, -, hres, -⟩ := h.sameParser_of_pending hw
  have hnotFull : s.cfg.accMax ≠ some s.acc.length := fun hfull =>
    absurd (hroom _ hfull) (by rw [hacc]; exact Nat.lt_irrefl _)
  cases (exec_fpPush_of_room b hres hnotFull).symm.trans hexec
  rfl

/-- While the verdict is pending every push answers zero. -/
theorem State.Heard.responses_feed {s : State} {w : List Byte} (bytes : List Byte) (h : s.Heard w)
    (hw : classify s.cfg (w ++ bytes) = .pending) (hroom : ∀ m, s.cfg.accMax = some m → (w ++ bytes).length ≤ m) :
    responses (fpFeed bytes) s = List.replicate bytes.length 0x0000 := by
  induction bytes generalizing s w with
  | nil => rfl
  | cons b bytes ih =>
    obtain ⟨u, hu⟩ := exec_completes (.fpPush b) s
    have hlt : ∀ m, s.cfg.accMax = some m → w.length < m := fun m hm => by
      have hle := hroom m hm
      rw [List.length_append, List.length_cons] at hle
      omega
    have hheard := h.push hlt hu
    rw [List.append_cons] at hw hroom
    have hpending : classify u.cfg (w ++ [b]) = .pending := exec_cfg hu ▸ classify_pending_of_append hw
    have hstatw : u.statw false = 0x0000 :=
      (hheard.sameParser_of_pending hpending).statw false |>.trans (State.statw_of_open (r := .pending) rfl rfl false)
    have hresp : u.resp = some 0x0000 := hstatw ▸ h.resp_push (classify_pending_of_append
      (classify_pending_of_append hw)) hlt hu
    rw [fpFeed_cons, responses_cons _ hu, hresp, ih hheard (exec_cfg hu ▸ hw) (exec_cfg hu ▸ hroom)]
    rfl

/-- The text of the frame of `body`. -/
theorem reply_of_framedText {cfg : Config} {body : List Byte} (hbody : etx ∉ body) :
    (classify cfg (build body)).reply (build body) =
      ⟨.framedText, (body.dropWhile fun b => cfg.ws.contains b).rdropWhile fun b => cfg.ws.contains b,
        crc16 (body ++ [etx]), crc16 (body ++ [etx])⟩ := by
  have hframe : build body = stx :: (body ++ etx :: hex4 (crc16 (body ++ [etx]))) := frame_eq body _
  have htext := take_drop_trim cfg [stx] body (etx :: hex4 (crc16 (body ++ [etx])))
  rw [hframe, classify_frame_of_eq hbody (length_hex4 _) (parsehex4_hex4 cfg _) rfl, Verdict.reply, ← htext]
  simp [Nat.add_comm]

/-- A stream whose last byte decides: every response is zero but the last, which is the status then. -/
theorem responses_fpRst_fpFeed_concat {s t : State} {front : List Byte} {last : Byte}
    (hpending : classify s.cfg front = .pending) (hroom : ∀ m, s.cfg.accMax = some m → front.length < m)
    (hrun : runCommands ([.fpRst] ++ fpFeed (front ++ [last])) s = .next t) :
    responses ([.fpRst] ++ fpFeed (front ++ [last])) s =
      List.replicate (front.length + 1) 0x0000 ++ [t.statw false] ∧ t.eosf = false := by
  have hclear := runCommands_singleton (exec_fpRst s)
  have hheard : (s.clearParser.respond 0x0000).Heard [] := State.ParserCleared.heard (SameParser.refl s.clearParser)
  have hle : ∀ m, s.cfg.accMax = some m → front.length ≤ m := fun m hm => (hroom m hm).le
  obtain ⟨u, hfront, hcfg, hu⟩ := hheard.feed front hle
  have hcfg' : u.cfg = s.cfg := hcfg
  rw [fpFeed_append, runCommands_append _ hclear, runCommands_append _ hfront] at hrun
  obtain ⟨t', hpush⟩ := exec_completes (.fpPush last) u
  obtain rfl : t' = t := Host.Outcome.next.inj ((runCommands_singleton hpush).symm.trans hrun)
  have hresp := hu.resp_push (hcfg'.symm ▸ hpending) (hcfg'.symm ▸ hroom) hpush
  refine ⟨?_, (hu.push (hcfg'.symm ▸ hroom) hpush).eosf⟩
  rw [responses_append _ hclear, fpFeed_append, responses_append _ hfront, hheard.responses_feed front hpending hle,
    fpFeed_cons, responses_cons _ hpush, hresp, List.replicate_succ]
  rfl

/-- A built frame less its last byte is a frame whose field has three bytes. -/
theorem exists_build_eq_concat (cfg : Config) {body : List Byte} (hbody : etx ∉ body) :
    ∃ front last, build body = front ++ [last] ∧ front.length = body.length + 5 ∧ classify cfg front = .pending := by
  have hframe : build body = stx :: (body ++ etx :: hex4 (crc16 (body ++ [etx]))) := frame_eq body _
  refine ⟨stx :: (body ++ etx :: (hex4 (crc16 (body ++ [etx]))).take 3),
    hexdigit ((crc16 (body ++ [etx])).extractLsb' 0 4), hframe.trans ?_, ?_, classify_frame_of_lt cfg hbody ?_⟩
  · simp [hex4]
  · simp [hex4]
  · simp [hex4]

/-- Settles O39: every byte but the last leaves the frame short; with the last it is complete, and its field is the
checksum of what it covers. -/
theorem builtFrameIsReadBack : Obligations.BuiltFrameIsReadBack := by
  intro s body hbody hroom
  obtain ⟨front, last, hbuild, hlen, hpending⟩ := exists_build_eq_concat s.cfg hbody
  have hframe : build body = stx :: (body ++ etx :: hex4 (crc16 (body ++ [etx]))) := frame_eq body _
  obtain ⟨t, hrun, hreply⟩ := reply_of_frame hbody (length_hex4 (crc16 (body ++ [etx]))) hroom
  rw [← hframe] at hrun hreply
  rw [reply_of_framedText hbody] at hreply
  have hres : t.res = .framedText := congrArg Reply.code hreply
  obtain ⟨hresponses, heosf⟩ := responses_fpRst_fpFeed_concat hpending
    (fun m hm => by have hle := hroom m hm; omega) (hbuild ▸ hrun)
  refine ⟨t, hrun, hres, congrArg Reply.received hreply, congrArg Reply.computed hreply, congrArg Reply.text hreply, ?_⟩
  rw [hbuild, hresponses, hlen, State.statw_of_open heosf hres]
  rfl

end Sys2Proof.Machine
end

section
/-! The assembler (R88) on commands as they are written: a line is a word that names a row and, for format `A`, a blank and
an operand of two hexadecimal digits. -/

namespace Sys2Proof.Machine

/-! ### Words of a line -/

theorem isWordChar_iff (c : Char) : isWordChar c = true ↔ isBlank c = false ∧ c ≠ ';' := by simp [isWordChar]

/-- A word at the start of a line has no blank before it. -/
theorem skipBlanks_of_word {w : List Char} (hne : w ≠ []) (hw : ∀ c ∈ w, isWordChar c = true) (rest : List Char) :
    skipBlanks (w ++ rest) = w ++ rest := by
  cases w with
  | nil => exact absurd rfl hne
  | cons c w =>
    obtain ⟨hblank, -⟩ := (isWordChar_iff c).1 (hw c List.mem_cons_self)
    rw [skipBlanks, List.cons_append, List.dropWhile_cons_of_neg (by simp [hblank])]

theorem lineEnds_of_word {w : List Char} (hne : w ≠ []) (hw : ∀ c ∈ w, isWordChar c = true) (rest : List Char) :
    lineEnds (w ++ rest) = false := by
  rw [lineEnds, skipBlanks_of_word hne hw]
  cases w with
  | nil => exact absurd rfl hne
  | cons c w =>
    obtain ⟨-, hcomment⟩ := (isWordChar_iff c).1 (hw c List.mem_cons_self)
    exact beq_false_of_ne hcomment

/-- A line that is a row's word, and the operand where what follows the word says so. -/
theorem assembleLine_of_word {w rest : List Char} {o : Opcode} {i : Instr} (hne : w ≠ [])
    (hw : ∀ c ∈ w, isWordChar c = true) (hname : opcodeNamed w = some o) (hrest : rest.takeWhile isWordChar = [])
    (hoperand : withOperand o (skipBlanks (rest.dropWhile isWordChar)) = .ok i) :
    assembleLine (w ++ rest) = .ok (some i) := by
  simp only [assembleLine, skipBlanks_of_word hne hw, lineEnds_of_word hne hw, List.takeWhile_append_of_pos hw, hrest,
    List.append_nil, List.dropWhile_append_of_pos hw, hname, hoperand, Bool.false_eq_true, if_false]

/-! ### The mnemonics -/

theorem mnemonicText_ne_nil (o : Opcode) : mnemonicText o ≠ [] := by
  cases o <;> simp [mnemonicText]

theorem isWordChar_of_mem_mnemonicText (o : Opcode) : ∀ c ∈ mnemonicText o, isWordChar c = true := by
  rw [← List.all_eq_true]
  cases o <;> rfl

/-- No two rows have the same mnemonic, and each is found by its own. -/
theorem opcodeNamed_mnemonicText (o : Opcode) : opcodeNamed (mnemonicText o) = some o := by
  cases o <;> rfl

/-! ### The operand -/

theorem nibbleChar_spec : ∀ n < 16, hexDigitValue (nibbleChar n) = some n ∧ isWordChar (nibbleChar n) = true := by
  decide

theorem operandValue_hex {a b : Nat} (ha : a < 16) (hb : b < 16) :
    operandValue ['0', 'x', nibbleChar a, nibbleChar b] = some (16 * a + b, []) := by
  obtain ⟨hva, hwa⟩ := nibbleChar_spec a ha
  obtain ⟨hvb, hwb⟩ := nibbleChar_spec b hb
  have hword : ∀ c ∈ ['0', 'x', nibbleChar a, nibbleChar b], isWordChar c = true := by
    have hzero : isWordChar '0' = true := rfl
    have hx : isWordChar 'x' = true := rfl
    simp [hzero, hx, hwa, hwb]
  have hoperand : operandValue ['0', 'x', nibbleChar a, nibbleChar b] =
      (numberValue (['0', 'x', nibbleChar a, nibbleChar b].takeWhile isWordChar)).map
        fun n => (n, ['0', 'x', nibbleChar a, nibbleChar b].dropWhile isWordChar) := rfl
  rw [hoperand, List.takeWhile_eq_self_iff.2 hword, List.dropWhile_eq_nil_iff.2 hword, numberValue, hva, hvb]
  rfl

theorem withOperand_nil {o : Opcode} {i : Instr} (h : Source.instr ⟨o, none⟩ = some i) : withOperand o [] = .ok i := by
  rw [withOperand, if_pos (by decide), h]

theorem withOperand_hex {o : Opcode} {i : Instr} {b : Byte} (h : Source.instr ⟨o, some b.toNat⟩ = some i) :
    withOperand o ['0', 'x', nibbleChar (b.toNat / 16), nibbleChar (b.toNat % 16)] = .ok i := by
  have hvalue := operandValue_hex (a := b.toNat / 16) (b := b.toNat % 16) (by omega) (by omega)
  rw [Nat.div_add_mod] at hvalue
  have hends : lineEnds ['0', 'x', nibbleChar (b.toNat / 16), nibbleChar (b.toNat % 16)] = false := rfl
  rw [withOperand, hends, hvalue]
  simp only [Bool.false_eq_true, if_false, h]
  rfl

/-! ### Every command -/

theorem source_instr (i : Instr) : i.source.instr = some i := by
  rw [Source.instr, if_pos (show i.source.wf = true from i.wf_of_type)]
  cases i <;> simp [Instr.source, Instr.opcode, Instr.operand, Opcode.instr]

/-- Settles O55: the mnemonic names the row, and the two digits are the operand's. -/
theorem assemblerReadsBackEveryCommand : Obligations.AssemblerReadsBackEveryCommand := by
  intro i
  have hsource : Source.instr ⟨i.opcode, i.operand.map BitVec.toNat⟩ = some i := source_instr i
  have hword := isWordChar_of_mem_mnemonicText i.opcode
  unfold writeCommand
  cases hop : i.operand with
  | none =>
    rw [hop] at hsource
    simpa using assembleLine_of_word (rest := []) (mnemonicText_ne_nil _) hword (opcodeNamed_mnemonicText _) rfl
      (withOperand_nil hsource)
  | some b =>
    rw [hop] at hsource
    exact assembleLine_of_word (mnemonicText_ne_nil _) hword (opcodeNamed_mnemonicText _) rfl (withOperand_hex hsource)

end Sys2Proof.Machine
end
